-- ==== Sys2Proof/Word.lean ====
section
/-! DEFINITION. The bit-vector types the spec treats as bits (R8, R10): bytes, 16-bit words and 32-bit values, all unsigned. -/

namespace Sys2Proof

/-- `u8` of R10: a byte of a frame, a bus address, a CRC. -/
abbrev Byte := BitVec 8

/-- `u16` of R10: an opcode or the value of a word (R8, R14). -/
abbrev Word := BitVec 16

/-- `u32` of R10: CTRL, CMD, SETTLE and a delay's argument (R8, R51). -/
abbrev Word32 := BitVec 32

end Sys2Proof
end

