-- ==== Sys2Proof/Syntax.lean ====
section
/-! DEFINITION. The request descriptor as the port carries it (R51) and the requests it stands for: one constructor of
`Instr` per row of spec/opcode_table.json, with the operands R70 and R71 give each, don't-care fields left out (R72). -/

namespace Sys2Proof

/-- The four parts of a request (R51), raw: as they stand on the request port and in REQ (R17). -/
structure Request where
  /-- CTRL: kind, counts and bus address (R52). -/
  ctrl : Word32
  /-- CMD: opcode, value or byte (R53). -/
  cmd : Word32
  /-- SETTLE: the settle delay in milliseconds (R54). -/
  settle : Word32
  /-- OPR[0..17]: the operand bytes (R55). -/
  opr : Vector Byte 18
  deriving DecidableEq, Repr

/-- A request by kind (R56) or by the name of a catalog command (R68, R71). -/
inductive Instr where
  /-- CRC8 (KIND 0, R78): the input bytes OPR[0..LEN-1]. -/
  | crc8 (input : List Byte)
  /-- WORD_ENC (KIND 1, R79). -/
  | wordEnc (value : Word)
  /-- WORD_CHK (KIND 2, R80): value high, value low, received CRC. -/
  | wordChk (hi lo crc : Byte)
  /-- WRITE (KIND 3, R89): the payload words are w[0..TXN-1] of R59. -/
  | write (addr : Byte) (opcode : Word) (words : List Word) (settle : Word32)
  /-- WRITE_READ (KIND 4, R90). -/
  | writeRead (addr : Byte) (opcode : Word) (words : List Word) (rxn : BitVec 3) (settle : Word32)
  /-- READ (KIND 5, R91). -/
  | read (addr : Byte) (opcode : Word) (rxn : BitVec 3) (settle : Word32)
  /-- WRITE_BYTE and, with `be`, WRITE_BYTE.BE (KIND 6, R92). -/
  | writeByte (be : Bool) (addr : Byte) (byte : Byte) (settle : Word32)
  /-- The reserved KIND 7, illegal (R56, R58). -/
  | reservedKind7
  /-- START_CONT (R99). -/
  | startCont (dev : Byte)
  /-- STOP_CONT (R100). -/
  | stopCont (dev : Byte)
  /-- SET_RHT temp_raw, humidity_raw (R101). -/
  | setRht (dev : Byte) (tempRaw humidityRaw : Word)
  /-- SET_PRESSURE p (R102). -/
  | setPressure (dev : Byte) (pressure : Word)
  /-- MEASURE_SINGLE (R103). -/
  | measureSingle (dev : Byte)
  /-- ENTER_SLEEP (R104). -/
  | enterSleep (dev : Byte)
  /-- EXIT_SLEEP (R105). -/
  | exitSleep (dev : Byte)
  /-- CONDITIONING (R106). -/
  | conditioning (dev : Byte)
  /-- SOFT_RESET (R107), always to bus address 0x00. -/
  | softReset
  /-- FACTORY_RESET (R108). -/
  | factoryReset (dev : Byte)
  /-- SELF_TEST (R109). -/
  | selfTest (dev : Byte)
  /-- ENABLE_TEST (R110). -/
  | enableTest (dev : Byte)
  /-- DISABLE_TEST (R111). -/
  | disableTest (dev : Byte)
  /-- FRC r (R112). -/
  | frc (dev : Byte) (target : Word)
  /-- GET_PRODUCT_ID (R113). -/
  | getProductId (dev : Byte)
  /-- READ_MEAS (R114). -/
  | readMeas (dev : Byte)
  deriving DecidableEq, Repr

/-- What an entry of the catalog sends first: a 16-bit opcode, or a single byte (R27, R68). -/
inductive Code where
  | opcode (value : Word)
  | byte (value : Byte)
  deriving DecidableEq, Repr

/-- A command descriptor of the CATALOG ROM (R27): the columns of R68. -/
structure Descriptor where
  /-- The command's name, as R68 spells it. -/
  name : String
  /-- The request kind it uses (R56). -/
  kind : BitVec 3
  /-- Its opcode or byte parameter. -/
  code : Code
  /-- Its bus address: `none` is the device's own address, DEV. -/
  addr : Option Byte
  /-- TXN, the payload word count. -/
  payload : Nat
  /-- RXN, the response word count. -/
  response : Nat
  /-- SETTLE, in milliseconds. -/
  settle : Word32
  /-- BE, best effort. -/
  be : Bool
  deriving DecidableEq, Repr

/-- Why a descriptor is illegal (R58); KIND 7 has a constructor of its own (`Instr.reservedKind7`). -/
inductive DecodeError where
  /-- A reserved bit of CTRL or CMD is 1. -/
  | reservedBit
  /-- BE = 1 with a KIND other than WRITE_BYTE. -/
  | bestEffort
  /-- CRC8 with LEN over 18. -/
  | lenTooLong
  /-- WRITE_READ or READ with RXN = 0. -/
  | noResponseWords
  deriving DecidableEq, Repr

end Sys2Proof
end

