-- ==== Sys2Proof/Machine/State.lean ====
section
/-! DEFINITION. The state of the block (10_state.md), its ports, the environment's part that the model holds as data, the
reasons a step can stop, and the state after reset. -/

namespace Sys2Proof.Machine

/-- The sequencer's phase (R16). -/
inductive Phase where
  | idle | wr | st | rd | done
  deriving DecidableEq, Repr

/-- STATUS.CODE (R21, R116); the value 3 is never written. -/
inductive StatusCode where
  | ok | transportError | checksumError
  deriving DecidableEq, Repr

/-- The reason tag of a diagnostic event (R117, R130). -/
inductive Reason where
  | frameTooLarge | writeFailed | readFailed | checksumMismatch
  deriving DecidableEq, Repr

/-- The result of a BusWrite (R12). -/
inductive WriteResult where
  | ok | err
  deriving DecidableEq, Repr

/-- The result of a BusRead (R12). -/
inductive ReadResult where
  | ok (bytes : List Byte)
  | err
  deriving DecidableEq, Repr

/-- An event of TRACE (R44): W, D, R and L. -/
inductive Event where
  | write (addr : Byte) (frame : List Byte) (result : WriteResult)
  | delay (ms : Word32)
  | read (addr : Byte) (n : Nat) (result : ReadResult)
  | log (reason : Reason)
  deriving DecidableEq, Repr

/-- What the environment answers to one bus call (R13): err, or ok, for a BusRead with the bytes it returns (the first n of
these 18, the longest response of R19). -/
inductive BusAnswer where
  | err
  | ok (bytes : Vector Byte 18)
  deriving DecidableEq, Repr

/-- The host request port (R28): req_valid, and req_ctrl, req_cmd, req_settle and req_opr. -/
structure Port where
  valid : Bool
  req : Request
  deriving DecidableEq, Repr

/-- A signal of the host status port (R28). -/
inductive StatusSignal where
  | reqReady | busy | done | phase | status | crcOut | rxwn | vStatus | vCrcOut | vEnc | vRxw
  | enc (i : Fin 3)
  | rxw (i : Fin 6)
  deriving DecidableEq, Repr

/-- One thing the host does after a step of the block (R13, R28, R29, R97; log 6). -/
inductive HostMove where
  /-- It drives the whole request port, busy or not (R137: it may change the port while it waits). -/
  | drive (port : Port)
  /-- It presents a request once the port is free, and holds it there until it is accepted (R137). -/
  | queue (req : Request)
  /-- It reads one signal of the status port (R29, R32). -/
  | read (signal : StatusSignal)
  deriving DecidableEq, Repr

/-- The two model faults of R125. Both are SAFE: the model stops where the spec gives no meaning. -/
inductive Fault where
  /-- IllegalRequest: raised by a step that would accept a request R58 makes illegal (`cycle`), by the meaning of the reserved
  KIND 7, and by a busy step whose REQ latch holds an illegal descriptor, a state no run reaches. Safe. -/
  | illegalRequest
  /-- UnwrittenResult: raised by a host read of a result register whose validity bit is 0 (`hostRead`, `hostTurn`). Safe. -/
  | unwrittenResult
  deriving DecidableEq, Repr

/-- Why an instruction is refused: only because it has no meaning yet. -/
inductive Refusal where
  /-- Raised by an arm of `exec` whose instruction has no meaning yet; no arm is in that case. Safe. -/
  | notModelled (mnemonic : String)
  deriving DecidableEq, Repr

/-- The block (R16 to R26), its request port (R28), and the environment's lined-up behaviour. -/
@[ext]
structure State where
  /-- `phase` (R16). -/
  phase : Phase
  /-- `REQ` (R17). -/
  req : Request
  /-- `TXB[0..TXL-1]` (R18): the bytes of the current write frame. -/
  txb : List Byte
  /-- `RXB[0..RXL-1]` (R19): the bytes of the current response. -/
  rxb : List Byte
  /-- `ACC` (R20), hidden. -/
  acc : Byte
  /-- `STATUS` (R21). -/
  status : Byte
  /-- `CRC_OUT` (R22). -/
  crcOut : Byte
  /-- `ENC[0..2]` (R23). -/
  enc : Vector Byte 3
  /-- `RXW[0..RXWN-1]` (R24). -/
  rxw : List Word
  /-- `V_STATUS` (R25). -/
  vStatus : Bool
  /-- `V_CRC_OUT` (R25). -/
  vCrcOut : Bool
  /-- `V_ENC` (R25). -/
  vEnc : Bool
  /-- `V_RXW` (R25). -/
  vRxw : Bool
  /-- `TRACE` (R26, R44), oldest event first. -/
  trace : List Event
  /-- The host request port (R28), an input. -/
  port : Port
  /-- The model's own: what the host does after each of the next steps (log 6). -/
  hostNext : List HostMove
  /-- The model's own: the bus answers lined up, one per W and one per R event (log 4). -/
  answers : List BusAnswer
  /-- The model's own: the counter the free values of Config are applied to (log 4). -/
  draws : Nat
  deriving DecidableEq, Repr

/-- The descriptor of zeros. -/
def zeroRequest : Request := ⟨0#32, 0#32, 0#32, Vector.replicate 18 0#8⟩

/-- The block right after reset (R32): IDLE, every validity bit 0, TRACE empty. The spec gives every other element no value:
the zeros and the empty buffers here are the model's (log 1; the port's, log 5; the model's own fields, logs 4 and 6). -/
def State.reset : State where
  phase := .idle
  req := zeroRequest
  txb := []
  rxb := []
  acc := 0#8
  status := 0#8
  crcOut := 0#8
  enc := Vector.replicate 3 0#8
  rxw := []
  vStatus := false
  vCrcOut := false
  vEnc := false
  vRxw := false
  trace := []
  port := ⟨false, zeroRequest⟩
  hostNext := []
  answers := []
  draws := 0

end Sys2Proof.Machine
end

