-- ==== Sys2Proof/Machine/Flags.lean ====
section
/-! DEFINITION. The status byte (R21, R116), the flags derived from phase (R28, R31) and the validity bits (R25). -/

namespace Sys2Proof.Machine

/-- The number of a status code (R116). -/
def StatusCode.bits : StatusCode → BitVec 2
  | .ok => 0#2
  | .transportError => 1#2
  | .checksumError => 2#2

/-- STATUS from its fields (R21): [7:5] 0, ERRIDX [4:2], CODE [1:0]. -/
def statusByte (code : StatusCode) (idx : Nat) : Byte := 0#3 ++ BitVec.ofNat 3 idx ++ code.bits

/-- STATUS.CODE (R21). -/
def State.code (s : State) : BitVec 2 := s.status.extractLsb' 0 2

/-- STATUS.ERRIDX (R21). -/
def State.errIdx (s : State) : BitVec 3 := s.status.extractLsb' 2 3

/-- STATUS[7:5] (R21). -/
def State.statusReserved (s : State) : BitVec 3 := s.status.extractLsb' 5 3

/-- The number of a phase (R16). -/
def Phase.bits : Phase → BitVec 3
  | .idle => 0#3
  | .wr => 1#3
  | .st => 2#3
  | .rd => 3#3
  | .done => 4#3

/-- `req_ready` (R28): phase is IDLE or DONE. -/
def Phase.ready : Phase → Bool
  | .idle | .done => true
  | .wr | .st | .rd => false

/-- `req_ready` (R28). -/
def State.reqReady (s : State) : Bool := s.phase.ready

/-- `busy` (R28). -/
def State.busy (s : State) : Bool := !s.phase.ready

/-- `done` (R28). -/
def State.isDone (s : State) : Bool := s.phase == .done

/-- Acceptance clears all four validity bits (R25, R82). -/
def State.clearValidity (s : State) : State :=
  { s with vStatus := false, vCrcOut := false, vEnc := false, vRxw := false }

end Sys2Proof.Machine
end

