-- ==== Sys2Proof/Config.lean ====
section
/-! DEFINITION. What the spec leaves to the implementation or the environment: the catalog's opcode parameters (R69, I14)
and the free values (I3 to I5). Every one is opaque and has no body: nothing in Lean can learn a value of it. -/

namespace Sys2Proof

/-- The opcode parameters OPC_* (R69; log 7): a permutation of the 16-bit words, of which the catalog uses the images of
0 to 13. So each OPC_* is any word, the fourteen are pairwise distinct, and nothing else is known of them. -/
opaque Config.opcode : Word ≃ Word

/-- SOFT_RESET_BYTE (R69, D18; log 7). -/
opaque Config.softResetByte : Byte

/-- EXIT_SLEEP_BYTE (R69, D18; log 7). -/
opaque Config.exitSleepByte : Byte

/-- Free value (I4, I5; log 4): whether the bus answers its `n`-th unscripted call with ok. -/
opaque Config.busOk : Nat → Bool

/-- Free value (I5; log 4): byte `i` of the bus's `n`-th unscripted answer. -/
opaque Config.busByte : Nat → Nat → Byte

/-- Free value (I3; log 3): what a host read of RXW[i] at or above RXWN shows, at the counter's value `n`. -/
opaque Config.deadWord : Nat → Nat → Word

end Sys2Proof
end

