-- ==== Sys2Proof/WellFormed.lean ====
section
/-! DEFINITION. Which terms of `Instr` a request descriptor can state: the widths of LEN, TXN and OPR (R52, R55) and the
legality of LEN and RXN (R57, R58). -/

namespace Sys2Proof

/-- The term is what some legal descriptor stands for (R57, R58); TXN up to 7 is encodable although a frame holds at most
four payload words (R52). `reservedKind7` has an encoding and is illegal. -/
def Instr.wf : Instr → Bool
  | .crc8 input => decide (input.length ≤ 18)
  | .wordEnc _ => true
  | .wordChk _ _ _ => true
  | .write _ _ words _ => decide (words.length ≤ 7)
  | .writeRead _ _ words rxn _ => decide (words.length ≤ 7) && decide (rxn ≠ 0#3)
  | .read _ _ rxn _ => decide (rxn ≠ 0#3)
  | .writeByte _ _ _ _ => true
  | .reservedKind7 => true
  | .startCont _ => true
  | .stopCont _ => true
  | .setRht _ _ _ => true
  | .setPressure _ _ => true
  | .measureSingle _ => true
  | .enterSleep _ => true
  | .exitSleep _ => true
  | .conditioning _ => true
  | .softReset => true
  | .factoryReset _ => true
  | .selfTest _ => true
  | .enableTest _ => true
  | .disableTest _ => true
  | .frc _ _ => true
  | .getProductId _ => true
  | .readMeas _ => true

end Sys2Proof
end

