-- ==== Sys2Proof/Decode.lean ====
section
/-! DEFINITION. The request descriptor's fields (R52 to R55), the decoder (R56 to R60, R72), the expansion of the catalog
commands (R71) and, from the same tables, the encoder. -/

namespace Sys2Proof

/-! ### Byte order and operand assembly -/

/-- `bytes_be16(v) = [v[15:8], v[7:0]]` (R10, R36). -/
def be16 (v : Word) : List Byte := [v.extractLsb' 8 8, v.extractLsb' 0 8]

/-- The 16-bit value of two bytes, the first in bits 15:8 (R38, R59). -/
def wordOf (hi lo : Byte) : Word := hi ++ lo

/-- The payload words of a byte string, in big-endian pairs (R59). -/
def pairWords : List Byte → List Word
  | hi :: lo :: rest => wordOf hi lo :: pairWords rest
  | _ => []

/-- OPR holding a byte string from byte 0, every other byte 0 (R70: a field not written is 0). -/
def packOpr (bytes : List Byte) : Vector Byte 18 := Vector.ofFn fun i => bytes.getD i.val 0#8

/-! ### Fields of CTRL and CMD (R52, R53) -/

def Request.kind (r : Request) : BitVec 3 := r.ctrl.extractLsb' 0 3
def Request.be (r : Request) : Bool := r.ctrl.getLsbD 3
def Request.txn (r : Request) : BitVec 3 := r.ctrl.extractLsb' 4 3
def Request.rxn (r : Request) : BitVec 3 := r.ctrl.extractLsb' 8 3
def Request.len (r : Request) : BitVec 5 := r.ctrl.extractLsb' 12 5
def Request.addr (r : Request) : Byte := r.ctrl.extractLsb' 24 8
def Request.opcode (r : Request) : Word := r.cmd.extractLsb' 0 16
def Request.byte (r : Request) : Byte := r.cmd.extractLsb' 16 8

/-- The reserved bits CTRL[7], CTRL[11], CTRL[23:17] and CMD[31:24] are all 0 (R57). -/
def Request.reservedClear (r : Request) : Bool :=
  !r.ctrl.getLsbD 7 && !r.ctrl.getLsbD 11 && r.ctrl.extractLsb' 17 7 == 0#7 && r.cmd.extractLsb' 24 8 == 0#8

/-- The first `n` operand bytes, OPR[0..n-1] (R55). -/
def Request.oprBytes (r : Request) (n : Nat) : List Byte := r.opr.toList.take n

/-- The payload words w[0..TXN-1] (R59). -/
def Request.words (r : Request) : List Word := pairWords (r.oprBytes (2 * r.txn.toNat))

/-! ### The decoder -/

/-- What a descriptor stands for (R56, R57, R72): total, KIND 7 first, then the other rows of R58 by name. -/
def decode (r : Request) : Except DecodeError Instr :=
  if r.kind = 7#3 then .ok .reservedKind7
  else if !r.reservedClear then .error .reservedBit
  else if r.be && r.kind ≠ 6#3 then .error .bestEffort
  else match r.kind.toNat with
    | 0 => if r.len.toNat ≤ 18 then .ok (.crc8 (r.oprBytes r.len.toNat)) else .error .lenTooLong
    | 1 => .ok (.wordEnc r.opcode)
    | 2 => .ok (.wordChk (r.opr[0]) (r.opr[1]) (r.opr[2]))
    | 3 => .ok (.write r.addr r.opcode r.words r.settle)
    | 4 =>
      if r.rxn = 0#3 then .error .noResponseWords
      else .ok (.writeRead r.addr r.opcode r.words r.rxn r.settle)
    | 5 => if r.rxn = 0#3 then .error .noResponseWords else .ok (.read r.addr r.opcode r.rxn r.settle)
    | _ => .ok (.writeByte r.be r.addr r.byte r.settle)

/-! ### The catalog's parameters and expansions -/

def Config.opcStartCont : Word := Config.opcode 0#16
def Config.opcStopCont : Word := Config.opcode 1#16
def Config.opcSetRht : Word := Config.opcode 2#16
def Config.opcSetPressure : Word := Config.opcode 3#16
def Config.opcMeasureSingle : Word := Config.opcode 4#16
def Config.opcEnterSleep : Word := Config.opcode 5#16
def Config.opcConditioning : Word := Config.opcode 6#16
def Config.opcFactoryReset : Word := Config.opcode 7#16
def Config.opcSelfTest : Word := Config.opcode 8#16
def Config.opcEnableTest : Word := Config.opcode 9#16
def Config.opcDisableTest : Word := Config.opcode 10#16
def Config.opcFrc : Word := Config.opcode 11#16
def Config.opcGetProductId : Word := Config.opcode 12#16
def Config.opcReadMeas : Word := Config.opcode 13#16

/-- The request of one of the seven kinds that a catalog command is another name of (R71, R99 to R114); a request that is
already one of the kinds is itself. -/
def Instr.expand : Instr → Instr
  | .startCont dev => .write dev Config.opcStartCont [] 1000#32
  | .stopCont dev => .write dev Config.opcStopCont [] 1200#32
  | .setRht dev t h => .write dev Config.opcSetRht [t, h] 1#32
  | .setPressure dev p => .write dev Config.opcSetPressure [p] 1#32
  | .measureSingle dev => .write dev Config.opcMeasureSingle [] 500#32
  | .enterSleep dev => .write dev Config.opcEnterSleep [] 1#32
  | .exitSleep dev => .writeByte true dev Config.exitSleepByte 5#32
  | .conditioning dev => .write dev Config.opcConditioning [] 22000#32
  | .softReset => .writeByte false 0x00#8 Config.softResetByte 10#32
  | .factoryReset dev => .read dev Config.opcFactoryReset 1#3 90#32
  | .selfTest dev => .read dev Config.opcSelfTest 1#3 360#32
  | .enableTest dev => .write dev Config.opcEnableTest [] 0#32
  | .disableTest dev => .write dev Config.opcDisableTest [] 0#32
  | .frc dev r => .writeRead dev Config.opcFrc [r] 1#3 90#32
  | .getProductId dev => .read dev Config.opcGetProductId 6#3 1#32
  | .readMeas dev => .read dev Config.opcReadMeas 4#3 1#32
  | .crc8 input => .crc8 input
  | .wordEnc value => .wordEnc value
  | .wordChk hi lo crc => .wordChk hi lo crc
  | .write addr opcode words settle => .write addr opcode words settle
  | .writeRead addr opcode words rxn settle => .writeRead addr opcode words rxn settle
  | .read addr opcode rxn settle => .read addr opcode rxn settle
  | .writeByte be addr byte settle => .writeByte be addr byte settle
  | .reservedKind7 => .reservedKind7

/-! ### The encoder -/

/-- CTRL from its fields, the reserved bits 0 (R52). -/
def ctrlWord (kind : BitVec 3) (be : Bool) (txn rxn : BitVec 3) (len : BitVec 5) (addr : Byte) : Word32 :=
  addr ++ 0#7 ++ len ++ 0#1 ++ rxn ++ 0#1 ++ txn ++ BitVec.ofBool be ++ kind

/-- CMD from its fields, the reserved byte 0 (R53). -/
def cmdWord (byte : Byte) (opcode : Word) : Word32 := 0#8 ++ byte ++ opcode

/-- The descriptor of a request of one of the kinds: R56 and R57, don't-care fields 0 (R70). A catalog command is expanded
before it comes here (`encode`). -/
def encodeKind : Instr → Request
  | .crc8 input => ⟨ctrlWord 0#3 false 0#3 0#3 (.ofNat 5 input.length) 0#8, 0#32, 0#32, packOpr input⟩
  | .wordEnc value => ⟨ctrlWord 1#3 false 0#3 0#3 0#5 0#8, cmdWord 0#8 value, 0#32, packOpr []⟩
  | .wordChk hi lo crc => ⟨ctrlWord 2#3 false 0#3 0#3 0#5 0#8, 0#32, 0#32, packOpr [hi, lo, crc]⟩
  | .write addr opcode words settle =>
    ⟨ctrlWord 3#3 false (.ofNat 3 words.length) 0#3 0#5 addr, cmdWord 0#8 opcode, settle, packOpr (words.flatMap be16)⟩
  | .writeRead addr opcode words rxn settle =>
    ⟨ctrlWord 4#3 false (.ofNat 3 words.length) rxn 0#5 addr, cmdWord 0#8 opcode, settle, packOpr (words.flatMap be16)⟩
  | .read addr opcode rxn settle => ⟨ctrlWord 5#3 false 0#3 rxn 0#5 addr, cmdWord 0#8 opcode, settle, packOpr []⟩
  | .writeByte be addr byte settle => ⟨ctrlWord 6#3 be 0#3 0#3 0#5 addr, cmdWord byte 0#16, settle, packOpr []⟩
  | .reservedKind7 | .startCont _ | .stopCont _ | .setRht _ _ _ | .setPressure _ _ | .measureSingle _ | .enterSleep _
  | .exitSleep _ | .conditioning _ | .softReset | .factoryReset _ | .selfTest _ | .enableTest _ | .disableTest _
  | .frc _ _ | .getProductId _ | .readMeas _ => ⟨ctrlWord 7#3 false 0#3 0#3 0#5 0#8, 0#32, 0#32, packOpr []⟩

/-- The words of a well-formed instruction; a catalog command has those of its expansion (R71, R98). -/
def encode (i : Instr) : Request := encodeKind i.expand

/-! ### The opcode table's numbering of the words -/

/-- The descriptor whose bits are `w`, every bit from `nbits` up 0: CTRL is bits 31:0, CMD 63:32, SETTLE 95:64 and OPR[i]
the eight bits from 96 + 8i (R51; each word and byte from its least significant bit). -/
def Request.ofBits (nbits w : Nat) : Request :=
  let v := w % 2 ^ nbits
  { ctrl := .ofNat 32 v
    cmd := .ofNat 32 (v / 2 ^ 32)
    settle := .ofNat 32 (v / 2 ^ 64)
    opr := Vector.ofFn fun i => .ofNat 8 (v / 2 ^ (96 + 8 * i.val)) }

/-- The instruction the decoder reads from the words `w` of `nbits` bits; none where it refuses. -/
def decodeTableWord (nbits w : Nat) : Option Instr := (decode (Request.ofBits nbits w)).toOption

end Sys2Proof
end

