-- ==== Sys2Proof/Machine/Crc.lean ====
section
/-! DEFINITION. The CRC-8 generator's arithmetic (40_crc.md sections 1 and 4) and the word frame (R61). -/

namespace Sys2Proof.Machine

/-- One of the eight iterations of R73: bit 7 is tested before the shift, and 0x31 is XORed after it. -/
def crc8Shift (a : Byte) : Byte := if a.getLsbD 7 then (a <<< 1) ^^^ 0x31#8 else a <<< 1

/-- `n` iterations of R73. -/
def crc8Iterate : Nat → Byte → Byte
  | 0, a => a
  | n + 1, a => crc8Iterate n (crc8Shift a)

/-- `crc8_step` (R73). -/
def crc8Step (acc b : Byte) : Byte := crc8Iterate 8 (acc ^^^ b)

/-- `crc8` (R74): from 0xFF, the first byte on the wire first, no final XOR. -/
def crc8 (bytes : List Byte) : Byte := bytes.foldl crc8Step 0xFF#8

/-- `crc_word` (R75). -/
def crcWord (v : Word) : Byte := crc8 (be16 v)

/-- `word_frame` (R61): value high, value low, CRC. -/
def wordFrame (v : Word) : List Byte := be16 v ++ [crcWord v]

end Sys2Proof.Machine
end

