-- ==== Sys2Proof/Machine/Operands.lean ====
section
/-! DEFINITION. The frames a request sends and the response it receives: the frame builder (R62, R63, R84), the frame limits
(R83) and the response check (R88). -/

namespace Sys2Proof.Machine

/-- `guarded_frame` (R62): the opcode, never followed by a CRC, then one word frame per payload word. -/
def guardedFrame (opcode : Word) (words : List Word) : List Byte := be16 opcode ++ words.flatMap wordFrame

/-- `limit_error` (R83) for `txn` payload words and `rxn` response words, 0 where the kind has none. -/
def limitError (txn rxn : Nat) : Bool := decide (2 + 3 * txn > 16) || decide (3 * rxn > 18)

/-- The frame of a request (R84), or none where the frame-limit check fails (R83). -/
def boundedFrame (txn rxn : Nat) (frame : List Byte) : Option (List Byte) :=
  if limitError txn rxn then none else some frame

/-- ACC after the CRCs of these word values have been computed in order (R20, R74; log 2). -/
def accAfter (words : List Word) (acc : Byte) : Byte :=
  match words.getLast? with
  | some v => crcWord v
  | none => acc

/-- The (value, CRC byte) pairs of a response's bytes (R38). -/
def responseWords : List Byte → List (Word × Byte)
  | hi :: lo :: c :: rest => (wordOf hi lo, c) :: responseWords rest
  | _ => []

/-- `ok[i]` of R88. -/
def wordGood (w : Word × Byte) : Bool := crcWord w.1 == w.2

/-- `check_words` (R88): the values if every word is good, else the index of the lowest-numbered bad one. -/
def checkWords (bytes : List Byte) : Except Nat (List Word) :=
  match (responseWords bytes).findIdx? (fun w => !wordGood w) with
  | none => .ok ((responseWords bytes).map Prod.fst)
  | some i => .error i

end Sys2Proof.Machine
end

