-- ==== Sys2Proof/Machine/Ops.lean ====
section
/-! DEFINITION. The named operations: events, the bus oracle, the ending of a request (the block's only error entry, R116 to
R123), and the sequencer's steps (R82 to R87) that every framer request shares. -/

namespace Sys2Proof.Machine

/-- `TXL` (R18). -/
def State.txl (s : State) : Nat := s.txb.length

/-- `RXL` (R19). -/
def State.rxl (s : State) : Nat := s.rxb.length

/-- `RXWN` (R24). -/
def State.rxwn (s : State) : Nat := s.rxw.length

/-- `emit E` (R11, R44). -/
def State.emit (s : State) (e : Event) : State := { s with trace := s.trace ++ [e] }

/-! ### The bus oracle (R13, R97; log 4) -/

/-- The free answer at the counter's value `n`: err, or ok with any bytes. -/
def freeAnswer (n : Nat) : BusAnswer :=
  if Config.busOk n then .ok (Vector.ofFn fun i => Config.busByte n i.val) else .err

/-- What the environment answers to the next bus call: the first answer lined up, or a free one. -/
def State.answer (s : State) : BusAnswer :=
  match s.answers with
  | a :: _ => a
  | [] => freeAnswer s.draws

/-- The state after the bus call that took `State.answer`. -/
def State.drawn (s : State) : State :=
  match s.answers with
  | _ :: rest => { s with answers := rest }
  | [] => { s with draws := s.draws + 1 }

/-- A BusWrite's result (R12): the bytes of an answer are a BusRead's alone. -/
def BusAnswer.toWrite : BusAnswer → WriteResult
  | .ok _ => .ok
  | .err => .err

/-- A BusRead's result (R12): ok with exactly the first `n` bytes, or err. -/
def BusAnswer.toRead (n : Nat) : BusAnswer → ReadResult
  | .ok bytes => .ok (bytes.toList.take n)
  | .err => .err

/-! ### The ending of a request (R117) -/

/-- `end_ok` (R117). -/
def endOk (s : State) : State := { s with status := statusByte .ok 0, vStatus := true, phase := .done }

/-- `end_err` (R117): the status, its validity bit, one L event, DONE. -/
def endErr (code : StatusCode) (idx : Nat) (reason : Reason) (s : State) : State :=
  { s with status := statusByte code idx, vStatus := true, phase := .done, trace := s.trace ++ [.log reason] }

/-! ### The sequencer's steps -/

/-- A pure kind's whole course (R82, 40_crc.md section 3): its acceptance, and nothing while the block is busy, when the
acceptance step is not enabled (a pure kind is never in REQ then: log 13). -/
def generator (body : State → State) (s : State) : State :=
  if s.phase.ready then body s.clearValidity else s

/-- A framer kind's acceptance (R82) after the validity bits are cleared: the size error (R83), or the frame into TXB (R84;
`words` are the payload words whose CRCs it computed). -/
def launch (frame : Option (List Byte)) (words : List Word) (s : State) : State :=
  match frame with
  | none => endErr .transportError 0 .frameTooLarge s
  | some f => { s with txb := f, acc := accAfter words s.acc, phase := .wr }

/-- `step_WR` (R85). -/
def writeStep (addr : Byte) (be : Bool) (s : State) : State :=
  let r := s.answer.toWrite
  let s' := s.drawn.emit (.write addr s.txb r)
  if r = .ok ∨ be = true then { s' with phase := .st } else endErr .transportError 0 .writeFailed s'

/-- `step_ST` (R86). -/
def settleStep (settle : Word32) (reads : Bool) (s : State) : State :=
  let s' := s.emit (.delay settle)
  if reads then { s' with phase := .rd } else endOk s'

/-- `step_RD` after a successful BusRead (R87): the bytes into RXB, and the words exposed only if all are good (R88). -/
def acceptResponse (bytes : List Byte) (s : State) : State :=
  let s' := { s with rxb := bytes, acc := accAfter ((responseWords bytes).map Prod.fst) s.acc }
  match checkWords bytes with
  | .ok words => endOk { s' with rxw := words, vRxw := true }
  | .error i => endErr .checksumError i .checksumMismatch s'

/-- `step_RD` (R87). -/
def readStep (addr : Byte) (rxn : BitVec 3) (s : State) : State :=
  let n := 3 * rxn.toNat
  let r := s.answer.toRead n
  let s' := s.drawn.emit (.read addr n r)
  match r with
  | .err => endErr .transportError 0 .readFailed s'
  | .ok bytes => acceptResponse bytes s'

/-- A framer kind's whole course, one step of it at a time: the phase decides which (R30, R82, R85 to R87, R95). `frame` is
none for a size error; `response` is RXN for the kinds that read. A kind that does not read is never in RD (R86), and nothing
happens there (log 13). -/
def framer (addr : Byte) (be : Bool) (frame : Option (List Byte)) (words : List Word) (settle : Word32)
    (response : Option (BitVec 3)) (s : State) : State :=
  match s.phase with
  | .idle => launch frame words s.clearValidity
  | .done => launch frame words s.clearValidity
  | .wr => writeStep addr be s
  | .st => settleStep settle response.isSome s
  | .rd =>
    match response with
    | some rxn => readStep addr rxn s
    | none => s

/-- WRITE's course (R89). -/
def writeCourse (addr : Byte) (opcode : Word) (words : List Word) (settle : Word32) (s : State) : State :=
  framer addr false (boundedFrame words.length 0 (guardedFrame opcode words)) words settle none s

/-- WRITE_READ's course (R90). -/
def writeReadCourse (addr : Byte) (opcode : Word) (words : List Word) (rxn : BitVec 3) (settle : Word32)
    (s : State) : State :=
  framer addr false (boundedFrame words.length rxn.toNat (guardedFrame opcode words)) words settle (some rxn) s

/-- READ's course (R91). -/
def readCourse (addr : Byte) (opcode : Word) (rxn : BitVec 3) (settle : Word32) (s : State) : State :=
  framer addr false (boundedFrame 0 rxn.toNat (guardedFrame opcode [])) [] settle (some rxn) s

/-- WRITE_BYTE's course (R92): the frame is the one byte (R63), and no size error is possible. -/
def writeByteCourse (be : Bool) (addr byte : Byte) (settle : Word32) (s : State) : State :=
  framer addr be (some [byte]) [] settle none s

end Sys2Proof.Machine
end

