-- ==== Sys2Proof/Machine/Catalog.lean ====
section
/-! DEFINITION. The catalog: the CATALOG ROM (R27, R68), the request of an entry (R98), and the meanings of the sixteen
catalog commands (42_catalog.md). -/

namespace Sys2Proof.Machine

/-- The CATALOG ROM: the rows of R68, in their order. -/
def catalog : List Descriptor := [
  ⟨"START_CONT", 3#3, .opcode Config.opcStartCont, none, 0, 0, 1000#32, false⟩,
  ⟨"STOP_CONT", 3#3, .opcode Config.opcStopCont, none, 0, 0, 1200#32, false⟩,
  ⟨"SET_RHT", 3#3, .opcode Config.opcSetRht, none, 2, 0, 1#32, false⟩,
  ⟨"SET_PRESSURE", 3#3, .opcode Config.opcSetPressure, none, 1, 0, 1#32, false⟩,
  ⟨"MEASURE_SINGLE", 3#3, .opcode Config.opcMeasureSingle, none, 0, 0, 500#32, false⟩,
  ⟨"ENTER_SLEEP", 3#3, .opcode Config.opcEnterSleep, none, 0, 0, 1#32, false⟩,
  ⟨"EXIT_SLEEP", 6#3, .byte Config.exitSleepByte, none, 0, 0, 5#32, true⟩,
  ⟨"CONDITIONING", 3#3, .opcode Config.opcConditioning, none, 0, 0, 22000#32, false⟩,
  ⟨"SOFT_RESET", 6#3, .byte Config.softResetByte, some 0x00#8, 0, 0, 10#32, false⟩,
  ⟨"FACTORY_RESET", 5#3, .opcode Config.opcFactoryReset, none, 0, 1, 90#32, false⟩,
  ⟨"SELF_TEST", 5#3, .opcode Config.opcSelfTest, none, 0, 1, 360#32, false⟩,
  ⟨"ENABLE_TEST", 3#3, .opcode Config.opcEnableTest, none, 0, 0, 0#32, false⟩,
  ⟨"DISABLE_TEST", 3#3, .opcode Config.opcDisableTest, none, 0, 0, 0#32, false⟩,
  ⟨"FRC", 4#3, .opcode Config.opcFrc, none, 1, 1, 90#32, false⟩,
  ⟨"GET_PRODUCT_ID", 5#3, .opcode Config.opcGetProductId, none, 0, 6, 1#32, false⟩,
  ⟨"READ_MEAS", 5#3, .opcode Config.opcReadMeas, none, 0, 4, 1#32, false⟩]

/-- OPCODE of an entry's request (R98): 0 where the entry sends a byte. -/
def catalogOpcode (d : Descriptor) : Word :=
  match d.code with
  | .opcode v => v
  | .byte _ => 0#16

/-- BYTE of an entry's request (R98): 0 where the entry sends an opcode. -/
def catalogByte (d : Descriptor) : Byte :=
  match d.code with
  | .opcode _ => 0#8
  | .byte b => b

/-- Applying a catalog entry to the device's address and the host's values (R98): every other field 0. -/
def catalogRequest (d : Descriptor) (dev : Byte) (values : List Word) : Request where
  ctrl := ctrlWord d.kind d.be (.ofNat 3 d.payload) (.ofNat 3 d.response) 0#5 (d.addr.getD dev)
  cmd := cmdWord (catalogByte d) (catalogOpcode d)
  settle := d.settle
  opr := packOpr (values.flatMap be16)

/-- Which ROM entry a catalog command is, its device address, and the host's values (R98); none for a kind's own request. -/
def catalogUse : Instr → Option (Nat × Byte × List Word)
  | .startCont dev => some (0, dev, [])
  | .stopCont dev => some (1, dev, [])
  | .setRht dev t h => some (2, dev, [t, h])
  | .setPressure dev x => some (3, dev, [x])
  | .measureSingle dev => some (4, dev, [])
  | .enterSleep dev => some (5, dev, [])
  | .exitSleep dev => some (6, dev, [])
  | .conditioning dev => some (7, dev, [])
  | .softReset => some (8, 0x00#8, [])
  | .factoryReset dev => some (9, dev, [])
  | .selfTest dev => some (10, dev, [])
  | .enableTest dev => some (11, dev, [])
  | .disableTest dev => some (12, dev, [])
  | .frc dev x => some (13, dev, [x])
  | .getProductId dev => some (14, dev, [])
  | .readMeas dev => some (15, dev, [])
  | .crc8 _ | .wordEnc _ | .wordChk _ _ _ | .write _ _ _ _ | .writeRead _ _ _ _ _ | .read _ _ _ _ | .writeByte _ _ _ _
  | .reservedKind7 => none

/-! ### The meanings: each runs exactly as the request it expands to (R71, R98) -/

/-- START_CONT (R99). -/
def execStartCont (dev : Byte) (s : State) : Host.Outcome State Fault Refusal :=
  .next (writeCourse dev Config.opcStartCont [] 1000#32 s)

/-- STOP_CONT (R100). -/
def execStopCont (dev : Byte) (s : State) : Host.Outcome State Fault Refusal :=
  .next (writeCourse dev Config.opcStopCont [] 1200#32 s)

/-- SET_RHT (R101). -/
def execSetRht (dev : Byte) (tempRaw humidityRaw : Word) (s : State) : Host.Outcome State Fault Refusal :=
  .next (writeCourse dev Config.opcSetRht [tempRaw, humidityRaw] 1#32 s)

/-- SET_PRESSURE (R102). -/
def execSetPressure (dev : Byte) (pressure : Word) (s : State) : Host.Outcome State Fault Refusal :=
  .next (writeCourse dev Config.opcSetPressure [pressure] 1#32 s)

/-- MEASURE_SINGLE (R103). -/
def execMeasureSingle (dev : Byte) (s : State) : Host.Outcome State Fault Refusal :=
  .next (writeCourse dev Config.opcMeasureSingle [] 500#32 s)

/-- ENTER_SLEEP (R104). -/
def execEnterSleep (dev : Byte) (s : State) : Host.Outcome State Fault Refusal :=
  .next (writeCourse dev Config.opcEnterSleep [] 1#32 s)

/-- EXIT_SLEEP (R105). -/
def execExitSleep (dev : Byte) (s : State) : Host.Outcome State Fault Refusal :=
  .next (writeByteCourse true dev Config.exitSleepByte 5#32 s)

/-- CONDITIONING (R106). -/
def execConditioning (dev : Byte) (s : State) : Host.Outcome State Fault Refusal :=
  .next (writeCourse dev Config.opcConditioning [] 22000#32 s)

/-- SOFT_RESET (R107). -/
def execSoftReset (s : State) : Host.Outcome State Fault Refusal :=
  .next (writeByteCourse false 0x00#8 Config.softResetByte 10#32 s)

/-- FACTORY_RESET (R108). -/
def execFactoryReset (dev : Byte) (s : State) : Host.Outcome State Fault Refusal :=
  .next (readCourse dev Config.opcFactoryReset 1#3 90#32 s)

/-- SELF_TEST (R109). -/
def execSelfTest (dev : Byte) (s : State) : Host.Outcome State Fault Refusal :=
  .next (readCourse dev Config.opcSelfTest 1#3 360#32 s)

/-- ENABLE_TEST (R110). -/
def execEnableTest (dev : Byte) (s : State) : Host.Outcome State Fault Refusal :=
  .next (writeCourse dev Config.opcEnableTest [] 0#32 s)

/-- DISABLE_TEST (R111). -/
def execDisableTest (dev : Byte) (s : State) : Host.Outcome State Fault Refusal :=
  .next (writeCourse dev Config.opcDisableTest [] 0#32 s)

/-- FRC (R112). -/
def execFrc (dev : Byte) (target : Word) (s : State) : Host.Outcome State Fault Refusal :=
  .next (writeReadCourse dev Config.opcFrc [target] 1#3 90#32 s)

/-- GET_PRODUCT_ID (R113). -/
def execGetProductId (dev : Byte) (s : State) : Host.Outcome State Fault Refusal :=
  .next (readCourse dev Config.opcGetProductId 6#3 1#32 s)

/-- READ_MEAS (R114). -/
def execReadMeas (dev : Byte) (s : State) : Host.Outcome State Fault Refusal :=
  .next (readCourse dev Config.opcReadMeas 4#3 1#32 s)

end Sys2Proof.Machine
end

