-- ==== Sys2Proof/Machine/Framer.lean ====
section
/-! DEFINITION. The meanings of the framer's request kinds (41_framer.md section 2) and of the reserved kind. -/

namespace Sys2Proof.Machine

/-- WRITE (R89). -/
def execWrite (addr : Byte) (opcode : Word) (words : List Word) (settle : Word32) (s : State) :
    Host.Outcome State Fault Refusal :=
  .next (writeCourse addr opcode words settle s)

/-- WRITE_READ (R90). -/
def execWriteRead (addr : Byte) (opcode : Word) (words : List Word) (rxn : BitVec 3) (settle : Word32) (s : State) :
    Host.Outcome State Fault Refusal :=
  .next (writeReadCourse addr opcode words rxn settle s)

/-- READ (R91). -/
def execRead (addr : Byte) (opcode : Word) (rxn : BitVec 3) (settle : Word32) (s : State) :
    Host.Outcome State Fault Refusal :=
  .next (readCourse addr opcode rxn settle s)

/-- WRITE_BYTE and WRITE_BYTE.BE (R92). -/
def execWriteByte (be : Bool) (addr byte : Byte) (settle : Word32) (s : State) : Host.Outcome State Fault Refusal :=
  .next (writeByteCourse be addr byte settle s)

/-- The reserved KIND 7: never accepted into any phase, the model stops (R58, R125). -/
def execReservedKind7 (_ : State) : Host.Outcome State Fault Refusal := .fault .illegalRequest

end Sys2Proof.Machine
end

