-- ==== Sys2Proof/Machine/Generator.lean ====
section
/-! DEFINITION. The meanings of the CRC-8 generator's request kinds (40_crc.md section 3). -/

namespace Sys2Proof.Machine

/-- CRC8 (R78). -/
def execCrc8 (input : List Byte) (s : State) : Host.Outcome State Fault Refusal :=
  .next (generator (fun t => endOk { t with acc := crc8 input, crcOut := crc8 input, vCrcOut := true }) s)

/-- WORD_ENC (R79). -/
def execWordEnc (value : Word) (s : State) : Host.Outcome State Fault Refusal :=
  .next (generator
    (fun t => endOk
      { t with
        acc := crcWord value
        enc := #v[value.extractLsb' 8 8, value.extractLsb' 0 8, crcWord value]
        vEnc := true })
    s)

/-- WORD_CHK (R80): the CRC bytes are compared; no result register is written. -/
def execWordChk (hi lo crc : Byte) (s : State) : Host.Outcome State Fault Refusal :=
  .next (generator
    (fun t =>
      let t' := { t with acc := crcWord (wordOf hi lo) }
      if crcWord (wordOf hi lo) = crc then endOk t' else endErr .checksumError 0 .checksumMismatch t')
    s)

end Sys2Proof.Machine
end

