-- ==== Sys2Proof/Machine/Dispatch.lean ====
section
/-! DEFINITION. The dispatch: one arm per constructor of Instr, each one direct call of that instruction's meaning. -/

namespace Sys2Proof.Machine

def exec (i : Instr) (s : State) : Host.Outcome State Fault Refusal :=
  match i with
  | .crc8 input => Sys2Proof.Machine.execCrc8 input s
  | .wordEnc value => Sys2Proof.Machine.execWordEnc value s
  | .wordChk hi lo crc => Sys2Proof.Machine.execWordChk hi lo crc s
  | .write addr opcode words settle => Sys2Proof.Machine.execWrite addr opcode words settle s
  | .writeRead addr opcode words rxn settle => Sys2Proof.Machine.execWriteRead addr opcode words rxn settle s
  | .read addr opcode rxn settle => Sys2Proof.Machine.execRead addr opcode rxn settle s
  | .writeByte be addr byte settle => Sys2Proof.Machine.execWriteByte be addr byte settle s
  | .reservedKind7 => Sys2Proof.Machine.execReservedKind7 s
  | .startCont dev => Sys2Proof.Machine.execStartCont dev s
  | .stopCont dev => Sys2Proof.Machine.execStopCont dev s
  | .setRht dev tempRaw humidityRaw => Sys2Proof.Machine.execSetRht dev tempRaw humidityRaw s
  | .setPressure dev pressure => Sys2Proof.Machine.execSetPressure dev pressure s
  | .measureSingle dev => Sys2Proof.Machine.execMeasureSingle dev s
  | .enterSleep dev => Sys2Proof.Machine.execEnterSleep dev s
  | .exitSleep dev => Sys2Proof.Machine.execExitSleep dev s
  | .conditioning dev => Sys2Proof.Machine.execConditioning dev s
  | .softReset => Sys2Proof.Machine.execSoftReset s
  | .factoryReset dev => Sys2Proof.Machine.execFactoryReset dev s
  | .selfTest dev => Sys2Proof.Machine.execSelfTest dev s
  | .enableTest dev => Sys2Proof.Machine.execEnableTest dev s
  | .disableTest dev => Sys2Proof.Machine.execDisableTest dev s
  | .frc dev target => Sys2Proof.Machine.execFrc dev target s
  | .getProductId dev => Sys2Proof.Machine.execGetProductId dev s
  | .readMeas dev => Sys2Proof.Machine.execReadMeas dev s

end Sys2Proof.Machine
end

