-- ==== Sys2Proof/Machine/Ports.lean ====
section
/-! DEFINITION. The block's ports as the host uses them: reads of the status port (R28, R29, R32) and the host's turn after
each step (R97, R137; log 6). -/

namespace Sys2Proof.Machine

/-- A result register's value, or the fault UnwrittenResult where its validity bit is 0 (R25, R32, R125). -/
def ifValid (valid : Bool) (value : Word) : Except Fault Word :=
  if valid then .ok value else .error .unwrittenResult

/-- A host read of one status-port signal, zero-extended to 16 bits (R28): it changes nothing (R43). RXW[i] at or above RXWN
holds no value (I3): it reads as a free one (log 3). -/
def hostRead (signal : StatusSignal) (s : State) : Except Fault Word :=
  match signal with
  | .reqReady => .ok ((BitVec.ofBool s.reqReady).setWidth 16)
  | .busy => .ok ((BitVec.ofBool s.busy).setWidth 16)
  | .done => .ok ((BitVec.ofBool s.isDone).setWidth 16)
  | .phase => .ok (s.phase.bits.setWidth 16)
  | .vStatus => .ok ((BitVec.ofBool s.vStatus).setWidth 16)
  | .vCrcOut => .ok ((BitVec.ofBool s.vCrcOut).setWidth 16)
  | .vEnc => .ok ((BitVec.ofBool s.vEnc).setWidth 16)
  | .vRxw => .ok ((BitVec.ofBool s.vRxw).setWidth 16)
  | .status => ifValid s.vStatus (s.status.setWidth 16)
  | .crcOut => ifValid s.vCrcOut (s.crcOut.setWidth 16)
  | .enc i => ifValid s.vEnc ((s.enc[i]).setWidth 16)
  | .rxwn => ifValid s.vRxw (.ofNat 16 s.rxwn)
  | .rxw i => ifValid s.vRxw (s.rxw.getD i.val (Config.deadWord s.draws i.val))

/-- The host takes its request off the port. -/
def State.withdraw (s : State) : State := { s with port := { s.port with valid := false } }

/-- The host presents a request. -/
def State.present (s : State) (r : Request) : State := { s with port := { valid := true, req := r } }

/-- What the host does after a step of the block; `taken` says that the step accepted its request, which it then withdraws
before anything else it does (log 6). A read of a register that holds no value stops the model (R125). -/
def hostTurn (taken : Bool) (s : State) : Host.Outcome State Fault Refusal :=
  let t := if taken then s.withdraw else s
  match t.hostNext with
  | [] => .next t
  | .drive p :: rest => .next { t with port := p, hostNext := rest }
  | .queue r :: rest => .next (if t.port.valid then t else { t.present r with hostNext := rest })
  | .read signal :: rest =>
    match hostRead signal t with
    | .ok _ => .next { t with hostNext := rest, draws := t.draws + 1 }
    | .error f => .fault f

end Sys2Proof.Machine
end

