-- ==== Sys2Proof/Machine/Fetch.lean ====
section
/-! DEFINITION. Where the next step's request comes from (R30, R49): the request port while the block is ready, the latch REQ
while it is busy; and the step around the dispatch. -/

namespace Sys2Proof.Machine

/-- `REQ <- req` (R17, R82): the port is sampled once, at acceptance (R49). -/
def State.latch (s : State) : State := { s with req := s.port.req }

/-- The host's turn after the block's own step, if that answered a next state. -/
def thenHost (taken : Bool) : Host.Outcome State Fault Refusal → Host.Outcome State Fault Refusal
  | .next s => hostTurn taken s
  | .fault f => .fault f
  | .refused r => .refused r

/-- The acceptance step (R82): an illegal request stops the model before anything changes (R58, R121), a legal one is
latched and begun. -/
def acceptStep (run : Instr → State → Host.Outcome State Fault Refusal) (s : State) : Host.Outcome State Fault Refusal :=
  match decode s.port.req with
  | .error _ => .fault .illegalRequest
  | .ok i => thenHost true (run i s.latch)

/-- A step of the request in progress, which is read from REQ (R17, R30). -/
def progressStep (run : Instr → State → Host.Outcome State Fault Refusal) (s : State) : Host.Outcome State Fault Refusal :=
  match decode s.req with
  | .error _ => .fault .illegalRequest
  | .ok i => thenHost false (run i s)

/-- One step (R7): while busy, the next step of the request in progress (R137); while ready, acceptance of what the port
presents (R82); with nothing presented, the block waits (log 6). -/
def cycle (run : Instr → State → Host.Outcome State Fault Refusal) (s : State) : Host.Outcome State Fault Refusal :=
  if s.busy then progressStep run s
  else if s.port.valid then acceptStep run s
  else hostTurn false s

/-- The state in which the next step fetches the descriptor `r`: presented on the port, to a block that is ready (a busy one
is set to DONE; log 9). -/
def State.placing (s : State) (r : Request) : State :=
  { s.present r with phase := if s.phase.ready then s.phase else .done }

end Sys2Proof.Machine
end

