-- ==== Sys2Proof/Machine/Step.lean ====
section
/-! DEFINITION. One step of the machine, and where it fetches its next request from. -/

namespace Sys2Proof.Machine

/-- One step: `cycle` around the dispatch. -/
def step (s : State) : Host.Outcome State Fault Refusal := cycle exec s

/-- `s` with the request of the opcode table's bits `w` where the next step fetches (log 9). -/
def State.withFetchWord (s : State) (nbits w : Nat) : State := s.placing (Request.ofBits nbits w)

end Sys2Proof.Machine
end

