-- ==== Sys2Proof/Safety.lean ====
section
/-! DEFINITION. What claims about the block are stated with: which requests are illegal (R58), which descriptors are the same
request (R57), what of a trace is observed (R44), the order of events (R45, R46), the invariant of the reachable states, and
a request's course at the level of `exec`. -/

namespace Sys2Proof.Machine

/-- R58's five grounds, on the raw descriptor. -/
def illegal (r : Request) : Prop :=
  r.kind = 7#3 ∨
  (r.ctrl.getLsbD 7 = true ∨ r.ctrl.getLsbD 11 = true ∨ r.ctrl.extractLsb' 17 7 ≠ 0#7 ∨ r.cmd.extractLsb' 24 8 ≠ 0#8) ∨
  (r.be = true ∧ r.kind ≠ 6#3) ∨
  (r.kind = 0#3 ∧ 18 < r.len.toNat) ∨
  ((r.kind = 4#3 ∨ r.kind = 5#3) ∧ r.rxn = 0#3)

/-- A legal descriptor whose sizes exceed a frame limit (R58, R83). -/
def oversize (r : Request) : Prop :=
  ((r.kind = 3#3 ∨ r.kind = 4#3) ∧ 4 < r.txn.toNat) ∨ ((r.kind = 4#3 ∨ r.kind = 5#3) ∧ 6 < r.rxn.toNat)

/-- Two descriptors differ only in fields their kind does not use: the rows of R57. -/
def sameUsedFields (r r' : Request) : Prop :=
  r.kind = r'.kind ∧ r.be = r'.be ∧ r.reservedClear = r'.reservedClear ∧
  (r.kind = 0#3 → r.len = r'.len ∧ r.oprBytes r.len.toNat = r'.oprBytes r.len.toNat) ∧
  (r.kind = 1#3 → r.opcode = r'.opcode) ∧
  (r.kind = 2#3 → r.oprBytes 3 = r'.oprBytes 3) ∧
  (r.kind = 3#3 ∨ r.kind = 4#3 → r.txn = r'.txn ∧ r.oprBytes (2 * r.txn.toNat) = r'.oprBytes (2 * r.txn.toNat)) ∧
  (r.kind = 4#3 ∨ r.kind = 5#3 → r.rxn = r'.rxn) ∧
  (r.kind = 3#3 ∨ r.kind = 4#3 ∨ r.kind = 5#3 → r.opcode = r'.opcode) ∧
  (r.kind = 6#3 → r.byte = r'.byte) ∧
  (r.kind = 3#3 ∨ r.kind = 4#3 ∨ r.kind = 5#3 ∨ r.kind = 6#3 → r.addr = r'.addr ∧ r.settle = r'.settle)

/-! ### Traces -/

/-- An event that every claim sees: no diagnostic, and no delay of 0 ms (R44). -/
def Event.observable : Event → Bool
  | .log _ => false
  | .delay ms => ms != 0#32
  | .write _ _ _ => true
  | .read _ _ _ => true

/-- What of a trace is observed: equivalent traces (R44) are those with the same observation. -/
def observed (trace : List Event) : List Event := trace.filter Event.observable

/-- An event that carries control information: W, D or R (R44). -/
def Event.isBus : Event → Bool
  | .log _ => false
  | .delay _ => true
  | .write _ _ _ => true
  | .read _ _ _ => true

/-- How far the last request's events have got (R45): nothing open, W done, D done (a write-only request may be over), R
done (the request may be over). -/
inductive TracePoint where
  | closed | wroteOk | wroteErr | settled | readErr | readOk
  deriving DecidableEq, Repr

/-- No event of the last request need follow. -/
def TracePoint.over : TracePoint → Bool
  | .closed | .settled | .readOk => true
  | .wroteOk | .wroteErr | .readErr => false

/-- The events that may follow (R45, R96): W opens a request; after it D, or L if it failed; after D an R; after a failed R
only L; FrameTooLarge and ChecksumMismatch may stand alone. -/
def TracePoint.next (p : TracePoint) (e : Event) : Option TracePoint :=
  match e with
  | .write _ _ .ok => if p.over then some .wroteOk else none
  | .write _ _ .err => if p.over then some .wroteErr else none
  | .delay _ => if p = .wroteOk ∨ p = .wroteErr then some .settled else none
  | .read _ _ (.ok _) => if p = .settled then some .readOk else none
  | .read _ _ .err => if p = .settled then some .readErr else none
  | .log .writeFailed => if p = .wroteErr then some .closed else none
  | .log .readFailed => if p = .readErr then some .closed else none
  | .log .frameTooLarge => if p.over then some .closed else none
  | .log .checksumMismatch => if p.over then some .closed else none

/-- Where a trace has got to; none if its events are out of order. -/
def tracePoint (trace : List Event) : Option TracePoint := trace.foldlM TracePoint.next .closed

/-- The point of the trace fits the phase (R16, R45): in ST the write is the last event, in RD the delay is, and otherwise no
request is open. -/
def TracePoint.fits (p : TracePoint) : Phase → Bool
  | .idle | .wr | .done => p.over
  | .st => p == .wroteOk || p == .wroteErr
  | .rd => p == .settled

/-- TRACE is a sequence of whole requests' events, in the order of R45 and R46, and then what the phase says of the request
in progress. -/
def State.traceOrdered (s : State) : Bool :=
  match tracePoint s.trace with
  | some p => p.fits s.phase
  | none => false

/-! ### The invariant -/

/-- STATUS as R21 has it: [7:5] 0, CODE not 3, ERRIDX at most 5, and 0 unless CODE is CHECKSUM_ERROR. -/
def State.statusLegal (s : State) : Prop :=
  s.statusReserved = 0#3 ∧ s.code ≠ 3#2 ∧ s.errIdx.toNat ≤ 5 ∧ (s.code ≠ 2#2 → s.errIdx = 0#3)

/-- The buffers hold what R18, R19 and R24 let them hold. -/
def State.buffersFit (s : State) : Prop := s.txl ≤ 16 ∧ s.rxl ≤ 18 ∧ s.rxwn ≤ 6

/-- No result register of a request is valid. -/
def State.noResult (s : State) : Prop := s.vCrcOut = false ∧ s.vEnc = false ∧ s.vRxw = false

/-- The validity bits and TRACE fit the phase (R16, R25, R32, R34): IDLE has seen no request; a busy block exposes nothing; a
DONE one exposes STATUS, and a result only beside CODE = OK. -/
def State.validityFits (s : State) : Prop :=
  match s.phase with
  | .idle => s.vStatus = false ∧ s.noResult ∧ s.trace = []
  | .wr | .st | .rd => s.vStatus = false ∧ s.noResult
  | .done => s.vStatus = true ∧ (s.noResult ∨ s.status = 0#8)

/-- A busy block's REQ is a legal framer request within the frame limits, TXB is its frame (R82, R84), and only a kind that
reads is in RD (R86). -/
def State.progressFits (s : State) : Prop :=
  s.phase.ready = false →
    match decode s.req with
    | .ok (.write _ opcode words _) =>
      s.phase ≠ .rd ∧ boundedFrame words.length 0 (guardedFrame opcode words) = some s.txb
    | .ok (.writeRead _ opcode words rxn _) =>
      boundedFrame words.length rxn.toNat (guardedFrame opcode words) = some s.txb
    | .ok (.read _ opcode rxn _) => boundedFrame 0 rxn.toNat (guardedFrame opcode []) = some s.txb
    | .ok (.writeByte _ _ byte _) => s.phase ≠ .rd ∧ s.txb = [byte]
    | _ => False

/-- RXW holds the words of the response in RXB, `rxn` of them, all good (R24, R87, R88). -/
def State.exposesResponse (s : State) (rxn : BitVec 3) : Prop :=
  s.rxl = 3 * rxn.toNat ∧ s.rxwn = rxn.toNat ∧ checkWords s.rxb = .ok s.rxw

/-- A valid result register holds the result of the request in REQ (R25: "a result is visible only for the request that
produced it"), and the exposed words are those of a response whose words are all good (R24). -/
def State.resultsBelong (s : State) : Prop :=
  match decode s.req with
  | .ok (.crc8 input) => s.vEnc = false ∧ s.vRxw = false ∧ (s.vCrcOut = true → s.crcOut = crc8 input)
  | .ok (.wordEnc value) => s.vCrcOut = false ∧ s.vRxw = false ∧ (s.vEnc = true → s.enc.toList = wordFrame value)
  | .ok (.writeRead _ _ _ rxn _) => s.vCrcOut = false ∧ s.vEnc = false ∧ (s.vRxw = true → s.exposesResponse rxn)
  | .ok (.read _ _ rxn _) => s.vCrcOut = false ∧ s.vEnc = false ∧ (s.vRxw = true → s.exposesResponse rxn)
  | _ => s.noResult

/-- The invariant of the reachable states. -/
def State.Inv (s : State) : Prop :=
  s.statusLegal ∧ s.buffersFit ∧ s.validityFits ∧ s.progressFits ∧ s.resultsBelong

/-! ### A request's course at the level of `exec` -/

/-- `k` steps of the request `i`, with no host in between. -/
def runExec (i : Instr) : Nat → State → Host.Outcome State Fault Refusal
  | 0, s => .next s
  | k + 1, s =>
    match exec i s with
    | .next t => runExec i k t
    | .fault f => .fault f
    | .refused r => .refused r

end Sys2Proof.Machine
end

