-- ==== Sys2Proof/Certificates/Slice0/Obligations.lean ====
section
/-! DEFINITION. The statements for the provers, from the spec's numbered rules. -/

open Sys2Proof Sys2Proof.Machine

/-! ### Shapes the statements share -/

/-- The state after a framer request with this frame has been accepted (R82): the validity bits cleared, the frame in TXB,
the sequencer in WR, everything else as it was (ACC: log 2). -/
def Sys2Proof.Claims.accepted (frame : List Byte) (words : List Word) (s : State) : State :=
  { s with
    vStatus := false, vCrcOut := false, vEnc := false, vRxw := false
    txb := frame, acc := accAfter words s.acc, phase := .wr }

/-- The state after a request has ended with this STATUS, having added these events to the trace of `s0`. -/
def Sys2Proof.Claims.endedWith (status : Byte) (s0 : State) (events : List Event) (s : State) : State :=
  { s with status := status, vStatus := true, phase := .done, trace := s0.trace ++ events }

open Sys2Proof.Claims

/-- A request that writes one frame and waits: accepted from every ready state; with the write answered ok it ends with
STATUS 0 after W and D, every other field as the rules leave it. -/
def Sys2Proof.Claims.WritesThenSettles (i : Instr) (addr : Byte) (frame : List Byte) (words : List Word)
    (settle : Word32) : Prop :=
  ∀ s : State, s.phase.ready = true →
    exec i s = .next (accepted frame words s) ∧
    ∀ b, s.answer = .ok b →
      runExec i 3 s =
        .next (endedWith 0x00#8 s [.write addr frame .ok, .delay settle] (accepted frame words s.drawn))

/-- A failed write ends the request at once: STATUS 1, W err and L, no D and no R. -/
def Sys2Proof.Claims.EndsOnWriteError (i : Instr) (addr : Byte) (frame : List Byte) (words : List Word) : Prop :=
  ∀ s : State, s.phase.ready = true → s.answer = .err →
    runExec i 2 s =
      .next (endedWith 0x01#8 s [.write addr frame .err, .log .writeFailed] (accepted frame words s.drawn))

/-- A best-effort byte: for either write result the delay is made and the request ends with STATUS 0. -/
def Sys2Proof.Claims.SettlesWhateverTheWrite (i : Instr) (addr : Byte) (frame : List Byte) (settle : Word32) : Prop :=
  ∀ s : State, s.phase.ready = true →
    exec i s = .next (accepted frame [] s) ∧
    runExec i 3 s =
      .next (endedWith 0x00#8 s [.write addr frame s.answer.toWrite, .delay settle] (accepted frame [] s.drawn))

/-- A request that reads `rxn` words, the write answered ok: its acceptance and its three endings (R87). -/
def Sys2Proof.Claims.ReadsAfterSettling (i : Instr) (addr : Byte) (frame : List Byte) (words : List Word)
    (settle : Word32) (rxn : Nat) : Prop :=
  ∀ s : State, s.phase.ready = true →
    exec i s = .next (accepted frame words s) ∧
    ∀ b, s.answer = .ok b →
      -- the read fails
      (s.drawn.answer = .err →
        runExec i 4 s =
          .next (endedWith 0x01#8 s
            [.write addr frame .ok, .delay settle, .read addr (3 * rxn) .err, .log .readFailed]
            (accepted frame words s.drawn.drawn))) ∧
      ∀ b' : Vector Byte 18, s.drawn.answer = .ok b' →
        let response := b'.toList.take (3 * rxn)
        let events : List Event := [.write addr frame .ok, .delay settle, .read addr (3 * rxn) (.ok response)]
        let received : State :=
          { accepted frame words s.drawn.drawn with
            rxb := response
            acc := accAfter ((responseWords response).map Prod.fst) (accAfter words s.acc) }
        -- every word is good: the values are exposed
        (∀ values : List Word, values.length = rxn → response = values.flatMap wordFrame →
          runExec i 4 s =
            .next (endedWith 0x00#8 s events { received with rxw := values, vRxw := true })) ∧
        -- some word is bad, `k` the lowest-numbered: nothing is exposed
        (∀ k, checkWords response = .error k →
          runExec i 4 s =
            .next (endedWith (BitVec.ofNat 8 (2 + 4 * k)) s (events ++ [.log .checksumMismatch]) received))

/-- The state after a size error (R83, R117): no bus event, one L, STATUS 1. -/
def Sys2Proof.Claims.tooLarge (s : State) : State :=
  { s with
    vStatus := true, vCrcOut := false, vEnc := false, vRxw := false
    status := 0x01#8, phase := .done, trace := s.trace ++ [.log .frameTooLarge] }

/-- The rows of R96 for a framer request: the events it may have made, with CODE and ERRIDX. -/
def Sys2Proof.Claims.completeTrace (i : Instr) (events : List Event) (code : BitVec 2) (idx : BitVec 3) : Prop :=
  match i with
  | .write a opcode words settle =>
    let f := guardedFrame opcode words
    (5 ≤ words.length ∧ events = [.log .frameTooLarge] ∧ code = 1#2 ∧ idx = 0#3) ∨
    (words.length ≤ 4 ∧
      ((events = [.write a f .err, .log .writeFailed] ∧ code = 1#2 ∧ idx = 0#3) ∨
       (events = [.write a f .ok, .delay settle] ∧ code = 0#2 ∧ idx = 0#3)))
  | .writeByte be a byte settle =>
    (be = false ∧ events = [.write a [byte] .err, .log .writeFailed] ∧ code = 1#2 ∧ idx = 0#3) ∨
    (be = false ∧ events = [.write a [byte] .ok, .delay settle] ∧ code = 0#2 ∧ idx = 0#3) ∨
    (be = true ∧ ∃ r, events = [.write a [byte] r, .delay settle] ∧ code = 0#2 ∧ idx = 0#3)
  | .writeRead a opcode words rxn settle =>
    let f := guardedFrame opcode words
    ((5 ≤ words.length ∨ rxn = 7#3) ∧ events = [.log .frameTooLarge] ∧ code = 1#2 ∧ idx = 0#3) ∨
    (words.length ≤ 4 ∧ rxn ≠ 7#3 ∧ readEnd a f rxn settle events code idx)
  | .read a opcode rxn settle =>
    (rxn = 7#3 ∧ events = [.log .frameTooLarge] ∧ code = 1#2 ∧ idx = 0#3) ∨
    (rxn ≠ 7#3 ∧ readEnd a (be16 opcode) rxn settle events code idx)
  | _ => False
where
  /-- The rows of the kinds that read, past the size check. -/
  readEnd (a : Byte) (f : List Byte) (rxn : BitVec 3) (settle : Word32) (events : List Event) (code : BitVec 2)
      (idx : BitVec 3) : Prop :=
    let n := 3 * rxn.toNat
    (events = [.write a f .err, .log .writeFailed] ∧ code = 1#2 ∧ idx = 0#3) ∨
    (events = [.write a f .ok, .delay settle, .read a n .err, .log .readFailed] ∧ code = 1#2 ∧ idx = 0#3) ∨
    (∃ b, b.length = n ∧ checkWords b = .error idx.toNat ∧ code = 2#2 ∧
      events = [.write a f .ok, .delay settle, .read a n (.ok b), .log .checksumMismatch]) ∨
    (∃ b values, b.length = n ∧ checkWords b = .ok values ∧ code = 0#2 ∧ idx = 0#3 ∧
      events = [.write a f .ok, .delay settle, .read a n (.ok b)])

/-- What a step of the block itself makes of `s`, before the host's turn (R7): the state after the request it accepts or goes
on with, or `s` where a ready block has nothing presented (log 6). -/
def Sys2Proof.Claims.ownStep (s u : State) : Prop :=
  (s.phase.ready = true ∧ s.port.valid = true ∧
    ∃ i, decode s.port.req = .ok i ∧ exec i { s with req := s.port.req } = .next u) ∨
  (s.phase.ready = true ∧ s.port.valid = false ∧ u = s) ∨
  (s.phase.ready = false ∧ ∃ i, decode s.req = .ok i ∧ exec i s = .next u)

/-- The signal is a result register whose validity bit is 0 (R25, R32); the other signals are never unwritten. -/
def Sys2Proof.Claims.unwritten (signal : StatusSignal) (s : State) : Prop :=
  match signal with
  | .status => s.vStatus = false
  | .crcOut => s.vCrcOut = false
  | .enc _ => s.vEnc = false
  | .rxwn | .rxw _ => s.vRxw = false
  | .reqReady | .busy | .done | .phase | .vStatus | .vCrcOut | .vEnc | .vRxw => False

/-- The request is one of the framer's four kinds (R56, formats F and B). -/
def Sys2Proof.Claims.isFramer : Instr → Bool
  | .write _ _ _ _ | .writeRead _ _ _ _ _ | .read _ _ _ _ | .writeByte _ _ _ _ => true
  | _ => false

/-! ### Encodings -/

/-- Descriptors of 95_test_vectors.md, written out by R52 to R60, decode to the requests they stand for. The last five are
illegal by R58; that KIND 7 decodes to the reserved kind, and by which name each of the others is refused, is the model's
choice (log 8). -/
def Obligations.SpecDescriptorsDecode : Prop :=
  decode ⟨0x00002000#32, 0#32, 0#32, packOpr [0xBE#8, 0xEF#8]⟩ = .ok (.crc8 [0xBE#8, 0xEF#8]) ∧
  decode ⟨0x00000001#32, 0x0000BEEF#32, 0#32, packOpr []⟩ = .ok (.wordEnc 0xBEEF#16) ∧
  decode ⟨0x00000002#32, 0#32, 0#32, packOpr [0xBE#8, 0xEF#8, 0x92#8]⟩ = .ok (.wordChk 0xBE#8 0xEF#8 0x92#8) ∧
  decode ⟨0x62000023#32, 0x00001234#32, 1#32, packOpr [0x66#8, 0x66#8, 0x80#8, 0x00#8]⟩ =
    .ok (.write 0x62#8 0x1234#16 [0x6666#16, 0x8000#16] 1#32) ∧
  decode ⟨0x62000114#32, 0x00001234#32, 0x0000005A#32, packOpr [0x81#8, 0x90#8]⟩ =
    .ok (.writeRead 0x62#8 0x1234#16 [0x8190#16] 1#3 90#32) ∧
  decode ⟨0x62000605#32, 0x00001234#32, 1#32, packOpr []⟩ = .ok (.read 0x62#8 0x1234#16 6#3 1#32) ∧
  decode ⟨0x6200000E#32, 0x00770000#32, 5#32, packOpr []⟩ = .ok (.writeByte true 0x62#8 0x77#8 5#32) ∧
  decode ⟨0x00000006#32, 0x00770000#32, 10#32, packOpr []⟩ = .ok (.writeByte false 0x00#8 0x77#8 10#32) ∧
  decode ⟨0x00000007#32, 0#32, 0#32, packOpr []⟩ = .ok .reservedKind7 ∧
  decode ⟨0x62000083#32, 0x00001234#32, 0#32, packOpr []⟩ = .error .reservedBit ∧
  decode ⟨0x0000000B#32, 0#32, 0#32, packOpr []⟩ = .error .bestEffort ∧
  decode ⟨0x00013000#32, 0#32, 0#32, packOpr []⟩ = .error .lenTooLong ∧
  decode ⟨0x62000014#32, 0x00001234#32, 0#32, packOpr []⟩ = .error .noResponseWords

/-- Decoding the encoding of a well-formed request gives the request back, and for a catalog command the one request it
expands to (R71, R72). -/
def Obligations.DecodeEncodeRoundTrip : Prop :=
  ∀ i : Instr, i.wf = true →
    decode (encode i) = .ok i.expand ∧ (catalogUse i = none → decode (encode i) = .ok i)

/-- Whatever decodes is a well-formed request of exactly one kind, and its canonical descriptor decodes to it again (R72). -/
def Obligations.DecodedRequestsAreWellFormedKinds : Prop :=
  ∀ (r : Request) (i : Instr), decode r = .ok i → i.wf = true ∧ catalogUse i = none ∧ decode (encode i) = .ok i

/-- R59, R60: every legal descriptor decodes to the request of its kind, with each operand read from its own bits and bytes:
CRC8's input is OPR[0..LEN-1], and payload word k is OPR[2k] || OPR[2k+1]. -/
def Obligations.LegalRequestsDecodeByTheirFields : Prop :=
  ∀ r : Request, ¬ illegal r →
    let opr (k : Nat) : Byte := r.opr.toList.getD k 0#8
    let addr : Byte := r.ctrl.extractLsb' 24 8
    let opcode : Word := r.cmd.extractLsb' 0 16
    let txn : Nat := (r.ctrl.extractLsb' 4 3).toNat
    let words : List Word := (List.range txn).map (fun k => opr (2 * k) ++ opr (2 * k + 1))
    let rxn : BitVec 3 := r.ctrl.extractLsb' 8 3
    (r.kind = 0#3 → decode r = .ok (.crc8 ((List.range (r.ctrl.extractLsb' 12 5).toNat).map opr))) ∧
    (r.kind = 1#3 → decode r = .ok (.wordEnc opcode)) ∧
    (r.kind = 2#3 → decode r = .ok (.wordChk (opr 0) (opr 1) (opr 2))) ∧
    (r.kind = 3#3 → decode r = .ok (.write addr opcode words r.settle)) ∧
    (r.kind = 4#3 → decode r = .ok (.writeRead addr opcode words rxn r.settle)) ∧
    (r.kind = 5#3 → decode r = .ok (.read addr opcode rxn r.settle)) ∧
    (r.kind = 6#3 → decode r = .ok (.writeByte (r.ctrl.getLsbD 3) addr (r.cmd.extractLsb' 16 8) r.settle))

/-- Two descriptors that differ only in don't-care fields are the same request (R57, R72). -/
def Obligations.DontCareFieldsAreIgnored : Prop :=
  ∀ r r' : Request, sameUsedFields r r' → decode r = decode r'

/-- R58: exactly the illegal requests stop the model at acceptance, with IllegalRequest; every other request is accepted, and
one whose sizes exceed a frame limit ends with TRANSPORT_ERROR and no bus call. -/
def Obligations.ExactlyIllegalRequestsFault : Prop :=
  ∀ s : State, s.phase.ready = true → s.port.valid = true →
    (step s = .fault .illegalRequest ↔ illegal s.port.req) ∧
    (¬ illegal s.port.req → s.hostNext = [] → ∃ t, step s = .next t ∧
      (oversize s.port.req →
        t.phase = .done ∧ t.code = 1#2 ∧ t.trace = s.trace ++ [.log .frameTooLarge]))

/-- R68, R71, R98: a catalog command's descriptor is its ROM row applied to the device's address and the host's values. -/
def Obligations.CatalogCommandsEncodeTheirRomRow : Prop :=
  ∀ (i : Instr) (k : Nat) (dev : Byte) (values : List Word), catalogUse i = some (k, dev, values) →
    ∃ d, catalog[k]? = some d ∧ values.length = d.payload ∧ encode i = catalogRequest d dev values

/-- R69: the fourteen opcode parameters are pairwise distinct. -/
def Obligations.OpcodeParametersAreDistinct : Prop :=
  [Config.opcStartCont, Config.opcStopCont, Config.opcSetRht, Config.opcSetPressure, Config.opcMeasureSingle,
    Config.opcEnterSleep, Config.opcConditioning, Config.opcFactoryReset, Config.opcSelfTest, Config.opcEnableTest,
    Config.opcDisableTest, Config.opcFrc, Config.opcGetProductId, Config.opcReadMeas].Nodup

/-! ### The step -/

/-- A step of a ready block runs the request its port decodes to, after latching the port in REQ (R17, R49, R82); then the
host has its turn, which, with no script, is to withdraw the request (the model's choice, log 6). -/
def Obligations.StepRunsThePresentedRequest : Prop :=
  ∀ (s : State) (i : Instr), s.phase.ready = true → s.port.valid = true → decode s.port.req = .ok i →
    step s = thenHost true (exec i { s with req := s.port.req }) ∧
    ∀ t, s.hostNext = [] → exec i { s with req := s.port.req } = .next t →
      step s = .next { t with port := { t.port with valid := false } }

/-- A step of a busy block runs the request latched in REQ (R17, R30); with no script the host does nothing. -/
def Obligations.BusyStepRunsTheLatchedRequest : Prop :=
  ∀ (s : State) (i : Instr), s.phase.ready = false → decode s.req = .ok i →
    step s = thenHost false (exec i s) ∧ (s.hostNext = [] → step s = exec i s)

/-- A ready block with nothing presented stays as it is: DONE is left only by accepting a request (R93), and reset makes no
step of its own (R133). -/
def Obligations.ReadyBlockWaitsForARequest : Prop :=
  ∀ s : State, s.phase.ready = true → s.port.valid = false → s.hostNext = [] → step s = .next s

/-- The descriptor `encode i`, placed where the next step fetches, is run by that step as `i`, for every well-formed request
and catalog command and in every state (R71, R82). -/
def Obligations.PlacedEncodingRunsNext : Prop :=
  ∀ (i : Instr) (s : State), i.wf = true →
    step (s.placing (encode i)) = thenHost true (exec i { s.placing (encode i) with req := encode i })

/-- The port is not looked at while a request is in progress: changing it changes no step but in the port itself (R17, R49). -/
def Obligations.BusyStepIgnoresThePort : Prop :=
  ∀ (s : State) (p : Port), s.phase.ready = false → s.hostNext = [] →
    step { s with port := p } =
      match step s with
      | .next t => .next { t with port := p }
      | .fault f => .fault f
      | .refused r => .refused r

/-- Host reads (R25, R32): a result register reads as its value while its validity bit is 1 and is the fault UnwrittenResult
while it is 0; RXW[i] has a value for i below RXWN. A read answers
its signal zero-extended to 16 bits (log 6). -/
def Obligations.ResultReadsNeedTheirValidityBit : Prop :=
  ∀ s : State,
    (hostRead .status s = if s.vStatus then .ok (s.status.setWidth 16) else .error .unwrittenResult) ∧
    (hostRead .crcOut s = if s.vCrcOut then .ok (s.crcOut.setWidth 16) else .error .unwrittenResult) ∧
    (∀ i : Fin 3, hostRead (.enc i) s = if s.vEnc then .ok ((s.enc[i]).setWidth 16) else .error .unwrittenResult) ∧
    (hostRead .rxwn s = if s.vRxw then .ok (BitVec.ofNat 16 s.rxw.length) else .error .unwrittenResult) ∧
    (∀ i : Fin 6, s.vRxw = false → hostRead (.rxw i) s = .error .unwrittenResult) ∧
    (∀ (i : Fin 6) (v : Word), s.vRxw = true → s.rxw[i.val]? = some v → hostRead (.rxw i) s = .ok v)

/-- A host read in a run (R43, R125): it stops the model with the read's fault, or changes nothing of the block (the two
fields it moves on are the model's own). -/
def Obligations.HostReadsChangeNothingOrFault : Prop :=
  ∀ (s : State) (signal : StatusSignal) (rest : List HostMove),
    s.phase.ready = true → s.port.valid = false → s.hostNext = .read signal :: rest →
      (∀ f, hostRead signal s = .error f → step s = .fault f) ∧
      (∀ v, hostRead signal s = .ok v → step s = .next { s with hostNext := rest, draws := s.draws + 1 })

/-- Whole machine (R125): from a state that meets the invariant a step answers a next state, or stops with IllegalRequest on
an illegal request presented to a ready block, or stops with UnwrittenResult on a host read of a result register whose
validity bit is 0 after the block's own step; nothing is refused. The host's reads come from its script, one move after each
step (the model's choice, log 6). -/
def Obligations.OnlyTheTwoModelFaultsStop : Prop :=
  ∀ s : State, s.Inv →
    (∃ t, step s = .next t) ∨
    (step s = .fault .illegalRequest ∧ s.phase.ready = true ∧ s.port.valid = true ∧ illegal s.port.req) ∨
    (step s = .fault .unwrittenResult ∧
      ∃ signal rest u, s.hostNext = .read signal :: rest ∧ ownStep s u ∧ unwritten signal u ∧
        hostRead signal u = .error .unwrittenResult)

/-- R58, R125: the reserved kind is never accepted; its meaning is the stop IllegalRequest. -/
def Obligations.ReservedKindStops : Prop := ∀ s : State, exec .reservedKind7 s = .fault .illegalRequest

/-! ### The generator -/

/-- CRC8 (R78), from every ready state: CRC_OUT and its validity bit, STATUS 0, DONE; every other field as it was but the
cleared validity bits (and ACC, log 2). LEN = 0 gives 0xFF; the single byte 0xFF gives 0. -/
def Obligations.Crc8WritesCrcOut : Prop :=
  (∀ (input : List Byte) (s : State), s.phase.ready = true →
    exec (.crc8 input) s =
      .next { s with
        crcOut := crc8 input, vCrcOut := true, status := 0x00#8, vStatus := true, vEnc := false, vRxw := false
        acc := crc8 input, phase := .done }) ∧
  crc8 [] = 0xFF#8 ∧ crc8 [0xFF#8] = 0x00#8

/-- WORD_ENC (R79), from every ready state. -/
def Obligations.WordEncWritesEnc : Prop :=
  ∀ (v : Word) (s : State), s.phase.ready = true →
    exec (.wordEnc v) s =
      .next { s with
        enc := #v[v.extractLsb' 8 8, v.extractLsb' 0 8, crcWord v], vEnc := true, status := 0x00#8, vStatus := true
        vCrcOut := false, vRxw := false, acc := crcWord v, phase := .done }

/-- WORD_CHK (R80), from every ready state: OK for the right CRC byte; otherwise CHECKSUM_ERROR with ERRIDX 0 and one L. No
result register is written. -/
def Obligations.WordChkComparesCrcBytes : Prop :=
  ∀ (hi lo c : Byte) (s : State), s.phase.ready = true →
    let t : State :=
      { s with
        vStatus := true, vCrcOut := false, vEnc := false, vRxw := false, acc := crcWord (hi ++ lo : Word)
        phase := .done }
    (crcWord (hi ++ lo : Word) = c → exec (.wordChk hi lo c) s = .next { t with status := 0x00#8 }) ∧
    (crcWord (hi ++ lo : Word) ≠ c →
      exec (.wordChk hi lo c) s =
        .next { t with status := 0x02#8, trace := s.trace ++ [.log .checksumMismatch] })

/-- R81: crc8_step is linear over GF(2) in its two arguments together, and takes zeros to zero; so crc8 is affine in the
input bytes, with the CRC of zeros as its constant part. -/
def Obligations.Crc8StepIsLinear : Prop :=
  crc8Step 0#8 0#8 = 0#8 ∧
  (∀ a a' b b' : Byte, crc8Step (a ^^^ a') (b ^^^ b') = crc8Step a b ^^^ crc8Step a' b') ∧
  ∀ x y : List Byte, x.length = y.length →
    crc8 (List.zipWith (fun a b => a ^^^ b) x y) = crc8 x ^^^ crc8 y ^^^ crc8 (List.replicate x.length 0#8)

/-- R76: the residue law. -/
def Obligations.CorrectWordFramesHaveResidueZero : Prop := ∀ v : Word, crc8 (wordFrame v) = 0x00#8

/-- R77: flipping one, two or three bits of a correct word frame leaves a frame that WORD_CHK rejects, from every ready
state, and that the framer's response check rejects; the spec's four-bit change is not detected; and whether a change of bits
is detected does not depend on the value it hits. The frame is taken as 24 bits, value first. -/
def Obligations.UpToThreeBitErrorsAreDetected : Prop :=
  (∀ (v : Word) (i j k : Fin 24),
    let frame : BitVec 24 :=
      (v ++ crcWord v : BitVec 24) ^^^ ((1#24 <<< i.val) ||| (1#24 <<< j.val) ||| (1#24 <<< k.val))
    crcWord (frame.extractLsb' 8 16) ≠ frame.extractLsb' 0 8 ∧
    checkWords [frame.extractLsb' 16 8, frame.extractLsb' 8 8, frame.extractLsb' 0 8] = .error 0 ∧
    ∀ s : State, s.phase.ready = true →
      ∃ t, exec (.wordChk (frame.extractLsb' 16 8) (frame.extractLsb' 8 8) (frame.extractLsb' 0 8)) s = .next t ∧
        t.code = 2#2 ∧ t.phase = .done) ∧
  crcWord 0x0000#16 = 0x81#8 ∧ crcWord 0xD004#16 = 0x81#8 ∧
  ∀ (v v' : Word) (change : BitVec 24),
    let passes (frame : BitVec 24) : Prop := crcWord (frame.extractLsb' 8 16) = frame.extractLsb' 0 8
    passes ((v ++ crcWord v : BitVec 24) ^^^ change) ↔ passes ((v' ++ crcWord v' : BitVec 24) ^^^ change)

/-! ### The framer -/

/-- R62: the guarded write frame, its length, and when it exceeds the 16-byte limit. -/
def Obligations.GuardedFrameLayout : Prop :=
  ∀ (opcode : Word) (words : List Word),
    guardedFrame opcode words =
      [opcode.extractLsb' 8 8, opcode.extractLsb' 0 8] ++
        words.flatMap (fun v => [v.extractLsb' 8 8, v.extractLsb' 0 8, crcWord v]) ∧
    (guardedFrame opcode words).length = 2 + 3 * words.length ∧
    (limitError words.length 0 = true ↔ 17 ≤ (guardedFrame opcode words).length)

/-- R83: the limit check, and what it decides at acceptance: a write frame over 16 bytes or a response over 18 bytes ends the
request with TRANSPORT_ERROR, one L (also where both are too large, R121) and no bus event; any other framer request goes on
to its write, and a WRITE_BYTE always does. -/
def Obligations.FrameLimitDecidesAtAcceptance : Prop :=
  ∀ (addr : Byte) (opcode : Word) (words : List Word) (rxn : BitVec 3) (settle : Word32) (s : State),
    let goesOn (i : Instr) : Prop := ∃ t, exec i s = .next t ∧ t.phase = .wr ∧ t.trace = s.trace
    s.phase.ready = true →
      (limitError words.length rxn.toNat = true ↔ 16 < 2 + 3 * words.length ∨ 18 < 3 * rxn.toNat) ∧
      (if 5 ≤ words.length then exec (.write addr opcode words settle) s = .next (tooLarge s)
        else goesOn (.write addr opcode words settle)) ∧
      (if 5 ≤ words.length ∨ rxn = 7#3 then exec (.writeRead addr opcode words rxn settle) s = .next (tooLarge s)
        else goesOn (.writeRead addr opcode words rxn settle)) ∧
      (if rxn = 7#3 then exec (.read addr opcode rxn settle) s = .next (tooLarge s)
        else goesOn (.read addr opcode rxn settle)) ∧
      ∀ (be : Bool) (byte : Byte), goesOn (.writeByte be addr byte settle)

/-- WRITE (R89, R85, R86): up to four payload words (ACC: log 2). -/
def Obligations.WriteSendsItsFrameAndSettles : Prop :=
  ∀ (addr : Byte) (opcode : Word) (words : List Word) (settle : Word32), words.length ≤ 4 →
    WritesThenSettles (.write addr opcode words settle) addr (guardedFrame opcode words) words settle ∧
    EndsOnWriteError (.write addr opcode words settle) addr (guardedFrame opcode words) words

/-- WRITE_READ (R90, R85 to R88): up to four payload words and six response words (ACC: log 2). -/
def Obligations.WriteReadReturnsCheckedWords : Prop :=
  ∀ (addr : Byte) (opcode : Word) (words : List Word) (rxn : BitVec 3) (settle : Word32),
    words.length ≤ 4 → rxn ≠ 0#3 → rxn ≠ 7#3 →
      ReadsAfterSettling (.writeRead addr opcode words rxn settle) addr (guardedFrame opcode words) words settle
        rxn.toNat ∧
      EndsOnWriteError (.writeRead addr opcode words rxn settle) addr (guardedFrame opcode words) words

/-- READ (R91, R85 to R88): a bare two-byte opcode and up to six response words (ACC: log 2). -/
def Obligations.ReadReturnsCheckedWords : Prop :=
  ∀ (addr : Byte) (opcode : Word) (rxn : BitVec 3) (settle : Word32), rxn ≠ 0#3 → rxn ≠ 7#3 →
    ReadsAfterSettling (.read addr opcode rxn settle) addr [opcode.extractLsb' 8 8, opcode.extractLsb' 0 8] [] settle
      rxn.toNat ∧
    EndsOnWriteError (.read addr opcode rxn settle) addr [opcode.extractLsb' 8 8, opcode.extractLsb' 0 8] []

/-- WRITE_BYTE (R92, R63): the frame is the one byte; with BE the write's result is discarded. -/
def Obligations.WriteByteSendsOneByte : Prop :=
  ∀ (addr byte : Byte) (settle : Word32),
    WritesThenSettles (.writeByte false addr byte settle) addr [byte] [] settle ∧
    EndsOnWriteError (.writeByte false addr byte settle) addr [byte] [] ∧
    SettlesWhateverTheWrite (.writeByte true addr byte settle) addr [byte] settle

/-- R94: READ is WRITE_READ with no payload words, in every state. -/
def Obligations.ReadIsWriteReadWithoutPayload : Prop :=
  ∀ (addr : Byte) (opcode : Word) (rxn : BitVec 3) (settle : Word32) (s : State),
    exec (.read addr opcode rxn settle) s = exec (.writeRead addr opcode [] rxn settle) s

/-- R88, R38: the response check by index. It gives the values if every word's CRC is right, and otherwise the index of the
lowest-numbered word whose CRC is wrong. -/
def Obligations.ResponseCheckReportsLowestBadWord : Prop :=
  ∀ (m : Nat) (b : List Byte), b.length = 3 * m →
    let value (i : Nat) : Word := b.getD (3 * i) 0#8 ++ b.getD (3 * i + 1) 0#8
    let good (i : Nat) : Prop := crcWord (value i) = b.getD (3 * i + 2) 0#8
    (∀ values : List Word,
      checkWords b = .ok values ↔ values = (List.range m).map value ∧ ∀ i, i < m → good i) ∧
    (∀ k : Nat, checkWords b = .error k ↔ k < m ∧ ¬ good k ∧ ∀ j, j < k → good j)

/-- R96: every framer request a ready block accepts ends in DONE after at most three steps more, with exactly one of the
rows of R96. -/
def Obligations.FramerRequestsMakeACompleteTrace : Prop :=
  ∀ (s : State) (i : Instr), s.phase.ready = true → s.port.valid = true → s.hostNext = [] →
    decode s.port.req = .ok i → isFramer i = true →
      ∃ k t events, k ≤ 3 ∧ Host.Core.run Sys2Proof.core (k + 1) s = .next t ∧ t.phase = .done ∧ t.vStatus = true ∧
        t.trace = s.trace ++ events ∧ completeTrace i events t.code t.errIdx

/-- R117: the two endings. -/
def Obligations.RequestEndings : Prop :=
  ∀ (s : State) (idx : Nat) (reason : Reason), idx ≤ 5 →
    endOk s = { s with status := 0x00#8, vStatus := true, phase := .done } ∧
    endErr .transportError 0 reason s =
      { s with status := 0x01#8, vStatus := true, phase := .done, trace := s.trace ++ [.log reason] } ∧
    endErr .checksumError idx reason s =
      { s with
        status := BitVec.ofNat 8 (4 * idx + 2), vStatus := true, phase := .done
        trace := s.trace ++ [.log reason] }

/-! ### The catalog (R99 to R114) -/

/-- The seven commands that send a bare opcode and wait (R99, R100, R103, R104, R106, R110, R111). -/
def Obligations.BareCommandsWriteAndSettle : Prop :=
  ∀ dev : Byte,
    let claim (i : Instr) (opcode : Word) (ms : Word32) : Prop :=
      WritesThenSettles i dev (be16 opcode) [] ms ∧ EndsOnWriteError i dev (be16 opcode) []
    claim (.startCont dev) Config.opcStartCont 1000#32 ∧
    claim (.stopCont dev) Config.opcStopCont 1200#32 ∧
    claim (.measureSingle dev) Config.opcMeasureSingle 500#32 ∧
    claim (.enterSleep dev) Config.opcEnterSleep 1#32 ∧
    claim (.conditioning dev) Config.opcConditioning 22000#32 ∧
    claim (.enableTest dev) Config.opcEnableTest 0#32 ∧
    claim (.disableTest dev) Config.opcDisableTest 0#32

/-- SET_RHT (R101) and SET_PRESSURE (R102): the host's words unchanged, each with its CRC, in the listed order. ACC
holds the CRC of the last payload word (log 2). -/
def Obligations.CompensationCommandsWriteTheirWords : Prop :=
  ∀ (dev : Byte) (t h p : Word),
    let rht := be16 Config.opcSetRht ++ wordFrame t ++ wordFrame h
    let pressure := be16 Config.opcSetPressure ++ wordFrame p
    WritesThenSettles (.setRht dev t h) dev rht [t, h] 1#32 ∧
    EndsOnWriteError (.setRht dev t h) dev rht [t, h] ∧
    WritesThenSettles (.setPressure dev p) dev pressure [p] 1#32 ∧
    EndsOnWriteError (.setPressure dev p) dev pressure [p]

/-- EXIT_SLEEP (R105) and SOFT_RESET (R107): single bytes; exit sleep ends OK whatever the write's result, soft reset goes to
address 0x00 and is not best-effort. -/
def Obligations.SingleByteCommands : Prop :=
  (∀ dev : Byte, SettlesWhateverTheWrite (.exitSleep dev) dev [Config.exitSleepByte] 5#32) ∧
  WritesThenSettles .softReset 0x00#8 [Config.softResetByte] [] 10#32 ∧
  EndsOnWriteError .softReset 0x00#8 [Config.softResetByte] []

/-- FACTORY_RESET (R108), SELF_TEST (R109), GET_PRODUCT_ID (R113) and READ_MEAS (R114): any result with right CRCs ends OK
(R115). ACC holds the CRC of the last response word (log 2). -/
def Obligations.ReadingCommandsReturnTheirWords : Prop :=
  ∀ dev : Byte,
    let claim (i : Instr) (opcode : Word) (ms : Word32) (n : Nat) : Prop :=
      ReadsAfterSettling i dev (be16 opcode) [] ms n ∧ EndsOnWriteError i dev (be16 opcode) []
    claim (.factoryReset dev) Config.opcFactoryReset 90#32 1 ∧
    claim (.selfTest dev) Config.opcSelfTest 360#32 1 ∧
    claim (.getProductId dev) Config.opcGetProductId 1#32 6 ∧
    claim (.readMeas dev) Config.opcReadMeas 1#32 4

/-- FRC (R112): one guarded word out, one checked word back. ACC holds the CRC of the payload word, and after the read of the
response word (log 2). -/
def Obligations.FrcSendsATargetAndReturnsAWord : Prop :=
  ∀ (dev : Byte) (r : Word),
    ReadsAfterSettling (.frc dev r) dev (be16 Config.opcFrc ++ wordFrame r) [r] 90#32 1 ∧
    EndsOnWriteError (.frc dev r) dev (be16 Config.opcFrc ++ wordFrame r) [r]

/-- R71: a catalog command runs, in every state, exactly as the one request it expands to. -/
def Obligations.CatalogCommandsRunAsTheirExpansion : Prop :=
  ∀ (i : Instr) (s : State), exec i s = exec i.expand s

/-! ### The whole machine -/

/-- R32, R133: the values the spec gives for reset, and every result read after it is the fault UnwrittenResult. -/
def Obligations.ResetLeavesNothingReadable : Prop :=
  State.reset.phase = .idle ∧ State.reset.vStatus = false ∧ State.reset.vCrcOut = false ∧ State.reset.vEnc = false ∧
  State.reset.vRxw = false ∧ State.reset.trace = [] ∧
  hostRead .status State.reset = .error .unwrittenResult ∧
  hostRead .crcOut State.reset = .error .unwrittenResult ∧
  hostRead .rxwn State.reset = .error .unwrittenResult ∧
  (∀ i, hostRead (.enc i) State.reset = .error .unwrittenResult) ∧
  (∀ i, hostRead (.rxw i) State.reset = .error .unwrittenResult)

/-- The invariant holds at reset. -/
def Obligations.InvariantHoldsAtReset : Prop := State.reset.Inv

/-- Every step keeps the invariant (R16 to R25, R34, R83): from every state, not only from reset's runs. -/
def Obligations.StepKeepsInvariant : Prop := ∀ s t : State, s.Inv → step s = .next t → t.Inv

/-- R45, R46, R96: every step keeps TRACE a sequence of whole requests' events in order, and then those of the request in
progress that its phase says; reset begins so. -/
def Obligations.StepKeepsEventOrder : Prop :=
  State.reset.traceOrdered = true ∧
  ∀ s t : State, s.traceOrdered = true → step s = .next t → t.traceOrdered = true

/-- R7, R44: a meaning only adds to TRACE, at most one W, D or R event and at most one L event, and an L only when it ends
the request. -/
def Obligations.TraceOnlyGrows : Prop :=
  ∀ (i : Instr) (s t : State), exec i s = .next t →
    ∃ events, t.trace = s.trace ++ events ∧ (events.filter Event.isBus).length ≤ 1 ∧
      (events.filter (fun e => !e.isBus)).length ≤ 1 ∧
      ((events.filter (fun e => !e.isBus)).length = 1 → t.phase = .done)

/-- R26, R44, R130: TRACE is an observation only. No meaning reads it: from any other trace the same step makes the same change
everywhere else and appends the same events, so an L event never affects what follows. -/
def Obligations.NoMeaningReadsTheTrace : Prop :=
  ∀ (i : Instr) (s : State) (trace : List Event),
    match exec i s with
    | .next t =>
      ∃ events, t.trace = s.trace ++ events ∧
        exec i { s with trace := trace } = .next { t with trace := trace ++ events }
    | .fault f => exec i { s with trace := trace } = .fault f
    | .refused r => exec i { s with trace := trace } = .refused r

/-- R44: the ending of a request, failed or not, and a settle step of 0 ms leave the observation of TRACE as it was; a longer
settle step appends its D to it. -/
def Obligations.DiagnosticsAndZeroDelaysAreNotObserved : Prop :=
  ∀ (s : State) (code : StatusCode) (idx : Nat) (reason : Reason) (ms : Word32) (reads : Bool),
    observed (endOk s).trace = observed s.trace ∧
    observed (endErr code idx reason s).trace = observed s.trace ∧
    observed (settleStep 0#32 reads s).trace = observed s.trace ∧
    (ms ≠ 0#32 → observed (settleStep ms reads s).trace = observed s.trace ++ [.delay ms])

/-- R22, R23, R24, R18, R19: which instruction writes which register, over all of them. CRC_OUT: CRC8 alone. ENC: WORD_ENC
alone. RXW and V_RXW going up: a reading kind in RD that ends OK. RXB: a reading kind in RD. TXB: a framer kind's
acceptance. -/
def Obligations.ResultRegistersHaveOneWriter : Prop :=
  ∀ (i : Instr) (s t : State), exec i s = .next t →
    let reading : Prop :=
      (∃ a o n ms, i.expand = .read a o n ms) ∨ (∃ a o ws n ms, i.expand = .writeRead a o ws n ms)
    (t.crcOut ≠ s.crcOut → ∃ input, i = .crc8 input) ∧
    (t.enc ≠ s.enc → ∃ v, i = .wordEnc v) ∧
    (t.rxw ≠ s.rxw ∨ (s.vRxw = false ∧ t.vRxw = true) →
      reading ∧ s.phase = .rd ∧ t.phase = .done ∧ t.code = 0#2) ∧
    (t.rxb ≠ s.rxb → reading ∧ s.phase = .rd) ∧
    (t.txb ≠ s.txb → isFramer i.expand = true ∧ s.phase.ready = true ∧ t.phase = .wr)

/-- What no meaning touches (R17, R28, R29): REQ, the request port and the host's script; the oracle's fields move only in WR
and RD. -/
def Obligations.MeaningsLeavePortsAndLatchAlone : Prop :=
  ∀ (i : Instr) (s t : State), exec i s = .next t →
    t.req = s.req ∧ t.port = s.port ∧ t.hostNext = s.hostNext ∧
    (s.phase ≠ .wr → s.phase ≠ .rd → t.answers = s.answers ∧ t.draws = s.draws)

/-- R34: a busy block's status port: busy, not ready, not done, the phase of the event it makes next (WR 1, ST 2, RD 3), no
validity bit and no result (a read answers its signal zero-extended to 16 bits: log 6). -/
def Obligations.BusyStatusPortShowsNoResult : Prop :=
  ∀ s : State, s.Inv → s.phase.ready = false →
    hostRead .busy s = .ok 1#16 ∧ hostRead .reqReady s = .ok 0#16 ∧ hostRead .done s = .ok 0#16 ∧
    hostRead .vStatus s = .ok 0#16 ∧ hostRead .vCrcOut s = .ok 0#16 ∧ hostRead .vEnc s = .ok 0#16 ∧
    hostRead .vRxw s = .ok 0#16 ∧
    (hostRead .phase s = .ok 1#16 ∧ s.phase = .wr ∨ hostRead .phase s = .ok 2#16 ∧ s.phase = .st ∨
      hostRead .phase s = .ok 3#16 ∧ s.phase = .rd) ∧
    hostRead .status s = .error .unwrittenResult ∧ hostRead .crcOut s = .error .unwrittenResult ∧
    hostRead .rxwn s = .error .unwrittenResult ∧
    (∀ i, hostRead (.enc i) s = .error .unwrittenResult) ∧ (∀ i, hostRead (.rxw i) s = .error .unwrittenResult)

/-- R124, R137: a request in progress reaches DONE after at most three steps, whatever the bus answers. -/
def Obligations.RequestsInProgressReachDone : Prop :=
  ∀ s : State, s.Inv → s.phase.ready = false → s.hostNext = [] →
    ∃ k t, k ≤ 3 ∧ Host.Core.run Sys2Proof.core k s = .next t ∧ t.phase = .done ∧ t.vStatus = true

/-- R122, R24: when a request ends with an error, none of its results is visible. -/
def Obligations.ErrorsExposeNoResult : Prop :=
  ∀ s t : State, s.Inv → step s = .next t → t.phase = .done → t.code ≠ 0#2 →
    t.vCrcOut = false ∧ t.vEnc = false ∧ t.vRxw = false

/-- R16, R28, R31, R34: what a host read of the other signals gives, in every phase: phase by its number, the three flags
derived from it, and each validity bit; and under the invariant, IDLE shows every validity bit 0 and DONE shows V_STATUS 1
(a read answers its signal zero-extended to 16 bits: log 6). -/
def Obligations.StatusPortShowsPhaseAndFlags : Prop :=
  ∀ s : State,
    (hostRead .phase s = .ok (match s.phase with
      | .idle => 0#16 | .wr => 1#16 | .st => 2#16 | .rd => 3#16 | .done => 4#16)) ∧
    (hostRead .reqReady s = .ok (if s.phase = .idle ∨ s.phase = .done then 1#16 else 0#16)) ∧
    (hostRead .busy s = .ok (if s.phase = .wr ∨ s.phase = .st ∨ s.phase = .rd then 1#16 else 0#16)) ∧
    (hostRead .done s = .ok (if s.phase = .done then 1#16 else 0#16)) ∧
    (hostRead .vStatus s = .ok (if s.vStatus then 1#16 else 0#16)) ∧
    (hostRead .vCrcOut s = .ok (if s.vCrcOut then 1#16 else 0#16)) ∧
    (hostRead .vEnc s = .ok (if s.vEnc then 1#16 else 0#16)) ∧
    (hostRead .vRxw s = .ok (if s.vRxw then 1#16 else 0#16)) ∧
    (s.Inv → s.phase = .idle →
      hostRead .vStatus s = .ok 0#16 ∧ hostRead .vCrcOut s = .ok 0#16 ∧ hostRead .vEnc s = .ok 0#16 ∧
      hostRead .vRxw s = .ok 0#16) ∧
    (s.Inv → s.phase = .done → hostRead .vStatus s = .ok 1#16)
end

