-- ==== Sys2Proof/Laws/Decode.lean ====
section
/-! SUPPORT. The small lemmas of the encoding: each field of CTRL and CMD read back from the words built of it, operand bytes
packed and unpacked, payload words paired again, and the decoder's cases. -/

namespace Sys2Proof

section ctrl
variable (kind : BitVec 3) (be : Bool) (txn rxn : BitVec 3) (len : BitVec 5) (addr : Byte)
  (cmd settle : Word32) (opr : Vector Byte 18)

theorem ctrlWord_kind : (ctrlWord kind be txn rxn len addr).extractLsb' 0 3 = kind := by
  ext i hi
  simp only [ctrlWord, BitVec.getElem_extractLsb', BitVec.getLsbD_append]
  simp [show i < 3 by omega]

theorem ctrlWord_be : (ctrlWord kind be txn rxn len addr).getLsbD 3 = be := by
  simp only [ctrlWord, BitVec.getLsbD_append]
  simp

theorem ctrlWord_txn : (ctrlWord kind be txn rxn len addr).extractLsb' 4 3 = txn := by
  ext i hi
  simp only [ctrlWord, BitVec.getElem_extractLsb', BitVec.getLsbD_append]
  simp [show ¬ 4 + i < 3 by omega, show ¬ 4 + i - 3 < 1 by omega, show 4 + i - 3 - 1 = i by omega, hi]

theorem ctrlWord_rxn : (ctrlWord kind be txn rxn len addr).extractLsb' 8 3 = rxn := by
  ext i hi
  simp only [ctrlWord, BitVec.getElem_extractLsb', BitVec.getLsbD_append]
  simp [show ¬ 8 + i < 3 by omega, show ¬ 8 + i - 3 < 1 by omega, show ¬ 8 + i - 3 - 1 < 3 by omega,
    show ¬ 8 + i - 3 - 1 - 3 < 1 by omega, show 8 + i - 3 - 1 - 3 - 1 = i by omega, hi]

theorem ctrlWord_len : (ctrlWord kind be txn rxn len addr).extractLsb' 12 5 = len := by
  ext i hi
  simp only [ctrlWord, BitVec.getElem_extractLsb', BitVec.getLsbD_append]
  simp [show ¬ 12 + i < 3 by omega, show ¬ 12 + i - 3 < 1 by omega, show ¬ 12 + i - 3 - 1 < 3 by omega,
    show ¬ 12 + i - 3 - 1 - 3 < 1 by omega, show ¬ 12 + i - 3 - 1 - 3 - 1 < 3 by omega,
    show ¬ 12 + i - 3 - 1 - 3 - 1 - 3 < 1 by omega, show 12 + i - 3 - 1 - 3 - 1 - 3 - 1 = i by omega, hi]

theorem ctrlWord_addr : (ctrlWord kind be txn rxn len addr).extractLsb' 24 8 = addr := by
  ext i hi
  simp only [ctrlWord, BitVec.getElem_extractLsb', BitVec.getLsbD_append]
  simp [show ¬ 24 + i < 3 by omega, show ¬ 24 + i - 3 < 1 by omega, show ¬ 24 + i - 3 - 1 < 3 by omega,
    show ¬ 24 + i - 3 - 1 - 3 < 1 by omega, show ¬ 24 + i - 3 - 1 - 3 - 1 < 3 by omega,
    show ¬ 24 + i - 3 - 1 - 3 - 1 - 3 < 1 by omega, show ¬ 24 + i - 3 - 1 - 3 - 1 - 3 - 1 < 5 by omega,
    show ¬ 24 + i - 3 - 1 - 3 - 1 - 3 - 1 - 5 < 7 by omega, show 24 + i - 3 - 1 - 3 - 1 - 3 - 1 - 5 - 7 = i by omega, hi]

theorem ctrlWord_reserved :
    (ctrlWord kind be txn rxn len addr).getLsbD 7 = false ∧ (ctrlWord kind be txn rxn len addr).getLsbD 11 = false ∧
    (ctrlWord kind be txn rxn len addr).extractLsb' 17 7 = 0#7 := by
  refine ⟨?_, ?_, ?_⟩
  · simp only [ctrlWord, BitVec.getLsbD_append]
    simp
  · simp only [ctrlWord, BitVec.getLsbD_append]
    simp
  ext i hi
  simp only [ctrlWord, BitVec.getElem_extractLsb', BitVec.getLsbD_append]
  simp [show ¬ 17 + i < 3 by omega, show ¬ 17 + i - 3 < 1 by omega, show ¬ 17 + i - 3 - 1 < 3 by omega,
    show ¬ 17 + i - 3 - 1 - 3 < 1 by omega, show ¬ 17 + i - 3 - 1 - 3 - 1 < 3 by omega,
    show ¬ 17 + i - 3 - 1 - 3 - 1 - 3 < 1 by omega, show ¬ 17 + i - 3 - 1 - 3 - 1 - 3 - 1 < 5 by omega,
    show 17 + i - 3 - 1 - 3 - 1 - 3 - 1 - 5 < 7 by omega]

@[simp] theorem Request.kind_mk : (Request.mk (ctrlWord kind be txn rxn len addr) cmd settle opr).kind = kind :=
  ctrlWord_kind ..
@[simp] theorem Request.be_mk : (Request.mk (ctrlWord kind be txn rxn len addr) cmd settle opr).be = be :=
  ctrlWord_be ..
@[simp] theorem Request.txn_mk : (Request.mk (ctrlWord kind be txn rxn len addr) cmd settle opr).txn = txn :=
  ctrlWord_txn ..
@[simp] theorem Request.rxn_mk : (Request.mk (ctrlWord kind be txn rxn len addr) cmd settle opr).rxn = rxn :=
  ctrlWord_rxn ..
@[simp] theorem Request.len_mk : (Request.mk (ctrlWord kind be txn rxn len addr) cmd settle opr).len = len :=
  ctrlWord_len ..
@[simp] theorem Request.addr_mk : (Request.mk (ctrlWord kind be txn rxn len addr) cmd settle opr).addr = addr :=
  ctrlWord_addr ..

end ctrl

section cmd
variable (byte : Byte) (opcode : Word) (ctrl settle : Word32) (opr : Vector Byte 18)

theorem cmdWord_opcode : (cmdWord byte opcode).extractLsb' 0 16 = opcode := by
  ext i hi
  simp only [cmdWord, BitVec.getElem_extractLsb', BitVec.getLsbD_append]
  simp [show i < 16 by omega]

theorem cmdWord_byte : (cmdWord byte opcode).extractLsb' 16 8 = byte := by
  ext i hi
  simp only [cmdWord, BitVec.getElem_extractLsb', BitVec.getLsbD_append]
  simp [hi]

theorem cmdWord_reserved : (cmdWord byte opcode).extractLsb' 24 8 = 0#8 := by
  ext i hi
  simp only [cmdWord, BitVec.getElem_extractLsb', BitVec.getLsbD_append]
  simp [show ¬ 24 + i < 16 by omega, show ¬ 24 + i - 16 < 8 by omega]

@[simp] theorem Request.opcode_mk : (Request.mk ctrl (cmdWord byte opcode) settle opr).opcode = opcode :=
  cmdWord_opcode ..
@[simp] theorem Request.byte_mk : (Request.mk ctrl (cmdWord byte opcode) settle opr).byte = byte := cmdWord_byte ..

end cmd

/-- Every descriptor the encoder builds has its reserved bits 0. -/
theorem Request.reservedClear_mk (kind : BitVec 3) (be : Bool) (txn rxn : BitVec 3) (len : BitVec 5) (addr byte : Byte)
    (opcode : Word) (settle : Word32) (opr : Vector Byte 18) :
    (Request.mk (ctrlWord kind be txn rxn len addr) (cmdWord byte opcode) settle opr).reservedClear = true := by
  obtain ⟨h7, h11, h17⟩ := ctrlWord_reserved kind be txn rxn len addr
  simp only [Request.reservedClear, h7, h11, h17, cmdWord_reserved]
  rfl

/-- The same with CMD all zeros. -/
theorem Request.reservedClear_mk_zero (kind : BitVec 3) (be : Bool) (txn rxn : BitVec 3) (len : BitVec 5) (addr : Byte)
    (settle : Word32) (opr : Vector Byte 18) :
    (Request.mk (ctrlWord kind be txn rxn len addr) 0#32 settle opr).reservedClear = true := by
  obtain ⟨h7, h11, h17⟩ := ctrlWord_reserved kind be txn rxn len addr
  simp only [Request.reservedClear, h7, h11, h17]
  rfl

/-! ### Operand bytes and payload words -/

/-- Packed operand bytes read back (R55). -/
theorem packOpr_take (bytes : List Byte) (h : bytes.length ≤ 18) : (packOpr bytes).toList.take bytes.length = bytes := by
  apply List.ext_getElem
  · simp; omega
  · intro i h1 h2
    simp [packOpr, List.getElem_take, h2]

theorem be16_length (v : Word) : (be16 v).length = 2 := rfl

theorem flatMap_be16_length (words : List Word) : (words.flatMap be16).length = 2 * words.length := by
  induction words with
  | nil => rfl
  | cons v rest ih => simp [be16]; omega

/-- A word is its two big-endian bytes (R36, R59). -/
theorem wordOf_be16 (v : Word) : wordOf (v.extractLsb' 8 8) (v.extractLsb' 0 8) = v := by
  unfold wordOf
  ext i hi
  simp only [BitVec.getElem_append, BitVec.getElem_extractLsb']
  split
  · next h => simp [BitVec.getElem_eq_testBit_toNat, BitVec.getLsbD]
  · next h =>
    rw [← BitVec.getLsbD_eq_getElem]
    congr 1
    omega

/-- Payload words written out in pairs and paired again (R59). -/
theorem pairWords_flatMap (words : List Word) : pairWords (words.flatMap be16) = words := by
  induction words with
  | nil => rfl
  | cons v rest ih => simp [be16, pairWords, wordOf_be16, ih]

theorem pairWords_length : ∀ bytes : List Byte, (pairWords bytes).length = bytes.length / 2
  | [] => rfl
  | [_] => by simp [pairWords]
  | _ :: _ :: rest => by simp [pairWords, pairWords_length rest]; omega

theorem Request.words_length (r : Request) : r.words.length = r.txn.toNat := by
  have := r.txn.isLt
  simp [Request.words, Request.oprBytes, pairWords_length]
  omega

/-! ### The decoder's cases -/

/-- What a descriptor that decodes stands for, by kind (R56). -/
theorem decode_cases {r : Request} {i : Instr} (h : decode r = .ok i) :
    (r.kind = 7#3 ∧ i = .reservedKind7) ∨
    (r.kind = 0#3 ∧ r.len.toNat ≤ 18 ∧ i = .crc8 (r.oprBytes r.len.toNat)) ∨
    (r.kind = 1#3 ∧ i = .wordEnc r.opcode) ∨
    (r.kind = 2#3 ∧ i = .wordChk (r.opr[0]) (r.opr[1]) (r.opr[2])) ∨
    (r.kind = 3#3 ∧ i = .write r.addr r.opcode r.words r.settle) ∨
    (r.kind = 4#3 ∧ r.rxn ≠ 0#3 ∧ i = .writeRead r.addr r.opcode r.words r.rxn r.settle) ∨
    (r.kind = 5#3 ∧ r.rxn ≠ 0#3 ∧ i = .read r.addr r.opcode r.rxn r.settle) ∨
    (r.kind = 6#3 ∧ i = .writeByte r.be r.addr r.byte r.settle) := by
  have kinds : ∀ k : BitVec 3, k = 7#3 ∨ k = 0#3 ∨ k = 1#3 ∨ k = 2#3 ∨ k = 3#3 ∨ k = 4#3 ∨ k = 5#3 ∨ k = 6#3 := by
    decide
  unfold decode at h
  rcases kinds r.kind with hk | hk | hk | hk | hk | hk | hk | hk <;> simp [hk] at h ⊢
  · exact h.symm
  all_goals (repeat' split at h) <;> simp_all

end Sys2Proof
end

