-- ==== Sys2Proof/Laws/State.lean ====
section
/-! SUPPORT. One lemma per field per named update of State, each true by rfl, so that no proof unfolds a record update. -/

namespace Sys2Proof.Machine

variable (s : State)

/-! ### emit -/

@[simp] theorem State.emit_phase (e : Event) : (s.emit e).phase = s.phase := rfl
@[simp] theorem State.emit_req (e : Event) : (s.emit e).req = s.req := rfl
@[simp] theorem State.emit_txb (e : Event) : (s.emit e).txb = s.txb := rfl
@[simp] theorem State.emit_rxb (e : Event) : (s.emit e).rxb = s.rxb := rfl
@[simp] theorem State.emit_acc (e : Event) : (s.emit e).acc = s.acc := rfl
@[simp] theorem State.emit_status (e : Event) : (s.emit e).status = s.status := rfl
@[simp] theorem State.emit_crcOut (e : Event) : (s.emit e).crcOut = s.crcOut := rfl
@[simp] theorem State.emit_enc (e : Event) : (s.emit e).enc = s.enc := rfl
@[simp] theorem State.emit_rxw (e : Event) : (s.emit e).rxw = s.rxw := rfl
@[simp] theorem State.emit_vStatus (e : Event) : (s.emit e).vStatus = s.vStatus := rfl
@[simp] theorem State.emit_vCrcOut (e : Event) : (s.emit e).vCrcOut = s.vCrcOut := rfl
@[simp] theorem State.emit_vEnc (e : Event) : (s.emit e).vEnc = s.vEnc := rfl
@[simp] theorem State.emit_vRxw (e : Event) : (s.emit e).vRxw = s.vRxw := rfl
@[simp] theorem State.emit_trace (e : Event) : (s.emit e).trace = s.trace ++ [e] := rfl
@[simp] theorem State.emit_port (e : Event) : (s.emit e).port = s.port := rfl
@[simp] theorem State.emit_hostNext (e : Event) : (s.emit e).hostNext = s.hostNext := rfl
@[simp] theorem State.emit_answers (e : Event) : (s.emit e).answers = s.answers := rfl
@[simp] theorem State.emit_draws (e : Event) : (s.emit e).draws = s.draws := rfl

/-! ### clearValidity -/

@[simp] theorem State.clearValidity_phase : (s.clearValidity).phase = s.phase := rfl
@[simp] theorem State.clearValidity_req : (s.clearValidity).req = s.req := rfl
@[simp] theorem State.clearValidity_txb : (s.clearValidity).txb = s.txb := rfl
@[simp] theorem State.clearValidity_rxb : (s.clearValidity).rxb = s.rxb := rfl
@[simp] theorem State.clearValidity_acc : (s.clearValidity).acc = s.acc := rfl
@[simp] theorem State.clearValidity_status : (s.clearValidity).status = s.status := rfl
@[simp] theorem State.clearValidity_crcOut : (s.clearValidity).crcOut = s.crcOut := rfl
@[simp] theorem State.clearValidity_enc : (s.clearValidity).enc = s.enc := rfl
@[simp] theorem State.clearValidity_rxw : (s.clearValidity).rxw = s.rxw := rfl
@[simp] theorem State.clearValidity_vStatus : (s.clearValidity).vStatus = false := rfl
@[simp] theorem State.clearValidity_vCrcOut : (s.clearValidity).vCrcOut = false := rfl
@[simp] theorem State.clearValidity_vEnc : (s.clearValidity).vEnc = false := rfl
@[simp] theorem State.clearValidity_vRxw : (s.clearValidity).vRxw = false := rfl
@[simp] theorem State.clearValidity_trace : (s.clearValidity).trace = s.trace := rfl
@[simp] theorem State.clearValidity_port : (s.clearValidity).port = s.port := rfl
@[simp] theorem State.clearValidity_hostNext : (s.clearValidity).hostNext = s.hostNext := rfl
@[simp] theorem State.clearValidity_answers : (s.clearValidity).answers = s.answers := rfl
@[simp] theorem State.clearValidity_draws : (s.clearValidity).draws = s.draws := rfl

/-! ### latch -/

@[simp] theorem State.latch_phase : (s.latch).phase = s.phase := rfl
@[simp] theorem State.latch_req : (s.latch).req = s.port.req := rfl
@[simp] theorem State.latch_txb : (s.latch).txb = s.txb := rfl
@[simp] theorem State.latch_rxb : (s.latch).rxb = s.rxb := rfl
@[simp] theorem State.latch_acc : (s.latch).acc = s.acc := rfl
@[simp] theorem State.latch_status : (s.latch).status = s.status := rfl
@[simp] theorem State.latch_crcOut : (s.latch).crcOut = s.crcOut := rfl
@[simp] theorem State.latch_enc : (s.latch).enc = s.enc := rfl
@[simp] theorem State.latch_rxw : (s.latch).rxw = s.rxw := rfl
@[simp] theorem State.latch_vStatus : (s.latch).vStatus = s.vStatus := rfl
@[simp] theorem State.latch_vCrcOut : (s.latch).vCrcOut = s.vCrcOut := rfl
@[simp] theorem State.latch_vEnc : (s.latch).vEnc = s.vEnc := rfl
@[simp] theorem State.latch_vRxw : (s.latch).vRxw = s.vRxw := rfl
@[simp] theorem State.latch_trace : (s.latch).trace = s.trace := rfl
@[simp] theorem State.latch_port : (s.latch).port = s.port := rfl
@[simp] theorem State.latch_hostNext : (s.latch).hostNext = s.hostNext := rfl
@[simp] theorem State.latch_answers : (s.latch).answers = s.answers := rfl
@[simp] theorem State.latch_draws : (s.latch).draws = s.draws := rfl

/-! ### withdraw -/

@[simp] theorem State.withdraw_phase : (s.withdraw).phase = s.phase := rfl
@[simp] theorem State.withdraw_req : (s.withdraw).req = s.req := rfl
@[simp] theorem State.withdraw_txb : (s.withdraw).txb = s.txb := rfl
@[simp] theorem State.withdraw_rxb : (s.withdraw).rxb = s.rxb := rfl
@[simp] theorem State.withdraw_acc : (s.withdraw).acc = s.acc := rfl
@[simp] theorem State.withdraw_status : (s.withdraw).status = s.status := rfl
@[simp] theorem State.withdraw_crcOut : (s.withdraw).crcOut = s.crcOut := rfl
@[simp] theorem State.withdraw_enc : (s.withdraw).enc = s.enc := rfl
@[simp] theorem State.withdraw_rxw : (s.withdraw).rxw = s.rxw := rfl
@[simp] theorem State.withdraw_vStatus : (s.withdraw).vStatus = s.vStatus := rfl
@[simp] theorem State.withdraw_vCrcOut : (s.withdraw).vCrcOut = s.vCrcOut := rfl
@[simp] theorem State.withdraw_vEnc : (s.withdraw).vEnc = s.vEnc := rfl
@[simp] theorem State.withdraw_vRxw : (s.withdraw).vRxw = s.vRxw := rfl
@[simp] theorem State.withdraw_trace : (s.withdraw).trace = s.trace := rfl
@[simp] theorem State.withdraw_port : (s.withdraw).port = { s.port with valid := false } := rfl
@[simp] theorem State.withdraw_hostNext : (s.withdraw).hostNext = s.hostNext := rfl
@[simp] theorem State.withdraw_answers : (s.withdraw).answers = s.answers := rfl
@[simp] theorem State.withdraw_draws : (s.withdraw).draws = s.draws := rfl

/-! ### present -/

@[simp] theorem State.present_phase (r : Request) : (s.present r).phase = s.phase := rfl
@[simp] theorem State.present_req (r : Request) : (s.present r).req = s.req := rfl
@[simp] theorem State.present_txb (r : Request) : (s.present r).txb = s.txb := rfl
@[simp] theorem State.present_rxb (r : Request) : (s.present r).rxb = s.rxb := rfl
@[simp] theorem State.present_acc (r : Request) : (s.present r).acc = s.acc := rfl
@[simp] theorem State.present_status (r : Request) : (s.present r).status = s.status := rfl
@[simp] theorem State.present_crcOut (r : Request) : (s.present r).crcOut = s.crcOut := rfl
@[simp] theorem State.present_enc (r : Request) : (s.present r).enc = s.enc := rfl
@[simp] theorem State.present_rxw (r : Request) : (s.present r).rxw = s.rxw := rfl
@[simp] theorem State.present_vStatus (r : Request) : (s.present r).vStatus = s.vStatus := rfl
@[simp] theorem State.present_vCrcOut (r : Request) : (s.present r).vCrcOut = s.vCrcOut := rfl
@[simp] theorem State.present_vEnc (r : Request) : (s.present r).vEnc = s.vEnc := rfl
@[simp] theorem State.present_vRxw (r : Request) : (s.present r).vRxw = s.vRxw := rfl
@[simp] theorem State.present_trace (r : Request) : (s.present r).trace = s.trace := rfl
@[simp] theorem State.present_port (r : Request) : (s.present r).port = { valid := true, req := r } := rfl
@[simp] theorem State.present_hostNext (r : Request) : (s.present r).hostNext = s.hostNext := rfl
@[simp] theorem State.present_answers (r : Request) : (s.present r).answers = s.answers := rfl
@[simp] theorem State.present_draws (r : Request) : (s.present r).draws = s.draws := rfl

/-! ### endOk -/

@[simp] theorem endOk_phase : (endOk s).phase = .done := rfl
@[simp] theorem endOk_req : (endOk s).req = s.req := rfl
@[simp] theorem endOk_txb : (endOk s).txb = s.txb := rfl
@[simp] theorem endOk_rxb : (endOk s).rxb = s.rxb := rfl
@[simp] theorem endOk_acc : (endOk s).acc = s.acc := rfl
@[simp] theorem endOk_status : (endOk s).status = statusByte .ok 0 := rfl
@[simp] theorem endOk_crcOut : (endOk s).crcOut = s.crcOut := rfl
@[simp] theorem endOk_enc : (endOk s).enc = s.enc := rfl
@[simp] theorem endOk_rxw : (endOk s).rxw = s.rxw := rfl
@[simp] theorem endOk_vStatus : (endOk s).vStatus = true := rfl
@[simp] theorem endOk_vCrcOut : (endOk s).vCrcOut = s.vCrcOut := rfl
@[simp] theorem endOk_vEnc : (endOk s).vEnc = s.vEnc := rfl
@[simp] theorem endOk_vRxw : (endOk s).vRxw = s.vRxw := rfl
@[simp] theorem endOk_trace : (endOk s).trace = s.trace := rfl
@[simp] theorem endOk_port : (endOk s).port = s.port := rfl
@[simp] theorem endOk_hostNext : (endOk s).hostNext = s.hostNext := rfl
@[simp] theorem endOk_answers : (endOk s).answers = s.answers := rfl
@[simp] theorem endOk_draws : (endOk s).draws = s.draws := rfl

/-! ### endErr -/

@[simp] theorem endErr_phase (code : StatusCode) (idx : Nat) (reason : Reason) : (endErr code idx reason s).phase = .done := rfl
@[simp] theorem endErr_req (code : StatusCode) (idx : Nat) (reason : Reason) : (endErr code idx reason s).req = s.req := rfl
@[simp] theorem endErr_txb (code : StatusCode) (idx : Nat) (reason : Reason) : (endErr code idx reason s).txb = s.txb := rfl
@[simp] theorem endErr_rxb (code : StatusCode) (idx : Nat) (reason : Reason) : (endErr code idx reason s).rxb = s.rxb := rfl
@[simp] theorem endErr_acc (code : StatusCode) (idx : Nat) (reason : Reason) : (endErr code idx reason s).acc = s.acc := rfl
@[simp] theorem endErr_status (code : StatusCode) (idx : Nat) (reason : Reason) : (endErr code idx reason s).status = statusByte code idx := rfl
@[simp] theorem endErr_crcOut (code : StatusCode) (idx : Nat) (reason : Reason) : (endErr code idx reason s).crcOut = s.crcOut := rfl
@[simp] theorem endErr_enc (code : StatusCode) (idx : Nat) (reason : Reason) : (endErr code idx reason s).enc = s.enc := rfl
@[simp] theorem endErr_rxw (code : StatusCode) (idx : Nat) (reason : Reason) : (endErr code idx reason s).rxw = s.rxw := rfl
@[simp] theorem endErr_vStatus (code : StatusCode) (idx : Nat) (reason : Reason) : (endErr code idx reason s).vStatus = true := rfl
@[simp] theorem endErr_vCrcOut (code : StatusCode) (idx : Nat) (reason : Reason) : (endErr code idx reason s).vCrcOut = s.vCrcOut := rfl
@[simp] theorem endErr_vEnc (code : StatusCode) (idx : Nat) (reason : Reason) : (endErr code idx reason s).vEnc = s.vEnc := rfl
@[simp] theorem endErr_vRxw (code : StatusCode) (idx : Nat) (reason : Reason) : (endErr code idx reason s).vRxw = s.vRxw := rfl
@[simp] theorem endErr_trace (code : StatusCode) (idx : Nat) (reason : Reason) : (endErr code idx reason s).trace = s.trace ++ [.log reason] := rfl
@[simp] theorem endErr_port (code : StatusCode) (idx : Nat) (reason : Reason) : (endErr code idx reason s).port = s.port := rfl
@[simp] theorem endErr_hostNext (code : StatusCode) (idx : Nat) (reason : Reason) : (endErr code idx reason s).hostNext = s.hostNext := rfl
@[simp] theorem endErr_answers (code : StatusCode) (idx : Nat) (reason : Reason) : (endErr code idx reason s).answers = s.answers := rfl
@[simp] theorem endErr_draws (code : StatusCode) (idx : Nat) (reason : Reason) : (endErr code idx reason s).draws = s.draws := rfl

/-! ### placing -/

@[simp] theorem State.placing_phase (r : Request) : (s.placing r).phase = if s.phase.ready then s.phase else .done := rfl
@[simp] theorem State.placing_req (r : Request) : (s.placing r).req = s.req := rfl
@[simp] theorem State.placing_txb (r : Request) : (s.placing r).txb = s.txb := rfl
@[simp] theorem State.placing_rxb (r : Request) : (s.placing r).rxb = s.rxb := rfl
@[simp] theorem State.placing_acc (r : Request) : (s.placing r).acc = s.acc := rfl
@[simp] theorem State.placing_status (r : Request) : (s.placing r).status = s.status := rfl
@[simp] theorem State.placing_crcOut (r : Request) : (s.placing r).crcOut = s.crcOut := rfl
@[simp] theorem State.placing_enc (r : Request) : (s.placing r).enc = s.enc := rfl
@[simp] theorem State.placing_rxw (r : Request) : (s.placing r).rxw = s.rxw := rfl
@[simp] theorem State.placing_vStatus (r : Request) : (s.placing r).vStatus = s.vStatus := rfl
@[simp] theorem State.placing_vCrcOut (r : Request) : (s.placing r).vCrcOut = s.vCrcOut := rfl
@[simp] theorem State.placing_vEnc (r : Request) : (s.placing r).vEnc = s.vEnc := rfl
@[simp] theorem State.placing_vRxw (r : Request) : (s.placing r).vRxw = s.vRxw := rfl
@[simp] theorem State.placing_trace (r : Request) : (s.placing r).trace = s.trace := rfl
@[simp] theorem State.placing_port (r : Request) : (s.placing r).port = { valid := true, req := r } := rfl
@[simp] theorem State.placing_hostNext (r : Request) : (s.placing r).hostNext = s.hostNext := rfl
@[simp] theorem State.placing_answers (r : Request) : (s.placing r).answers = s.answers := rfl
@[simp] theorem State.placing_draws (r : Request) : (s.placing r).draws = s.draws := rfl

/-! ### drawn: a bus call takes its answer from `answers`, or advances `draws` -/

@[simp] theorem State.drawn_phase : s.drawn.phase = s.phase := by unfold State.drawn; split <;> rfl
@[simp] theorem State.drawn_req : s.drawn.req = s.req := by unfold State.drawn; split <;> rfl
@[simp] theorem State.drawn_txb : s.drawn.txb = s.txb := by unfold State.drawn; split <;> rfl
@[simp] theorem State.drawn_rxb : s.drawn.rxb = s.rxb := by unfold State.drawn; split <;> rfl
@[simp] theorem State.drawn_acc : s.drawn.acc = s.acc := by unfold State.drawn; split <;> rfl
@[simp] theorem State.drawn_status : s.drawn.status = s.status := by unfold State.drawn; split <;> rfl
@[simp] theorem State.drawn_crcOut : s.drawn.crcOut = s.crcOut := by unfold State.drawn; split <;> rfl
@[simp] theorem State.drawn_enc : s.drawn.enc = s.enc := by unfold State.drawn; split <;> rfl
@[simp] theorem State.drawn_rxw : s.drawn.rxw = s.rxw := by unfold State.drawn; split <;> rfl
@[simp] theorem State.drawn_vStatus : s.drawn.vStatus = s.vStatus := by unfold State.drawn; split <;> rfl
@[simp] theorem State.drawn_vCrcOut : s.drawn.vCrcOut = s.vCrcOut := by unfold State.drawn; split <;> rfl
@[simp] theorem State.drawn_vEnc : s.drawn.vEnc = s.vEnc := by unfold State.drawn; split <;> rfl
@[simp] theorem State.drawn_vRxw : s.drawn.vRxw = s.vRxw := by unfold State.drawn; split <;> rfl
@[simp] theorem State.drawn_trace : s.drawn.trace = s.trace := by unfold State.drawn; split <;> rfl
@[simp] theorem State.drawn_port : s.drawn.port = s.port := by unfold State.drawn; split <;> rfl
@[simp] theorem State.drawn_hostNext : s.drawn.hostNext = s.hostNext := by unfold State.drawn; split <;> rfl

/-- A bus call changes nothing but the oracle's two fields. -/
theorem State.drawn_eq : s.drawn = { s with answers := s.drawn.answers, draws := s.drawn.draws } := by
  unfold State.drawn; split <;> rfl

end Sys2Proof.Machine
end

