-- ==== Sys2Proof/Laws/Ops.lean ====
section
/-! SUPPORT. What each shared operation can do, said once: the phases of a framer request, the endings, the response check,
the host's turn, and the three kinds of step. -/

namespace Sys2Proof.Machine

variable {s t : State}

/-! ### Phases -/

theorem Phase.ready_iff {p : Phase} : p.ready = true ↔ p = .idle ∨ p = .done := by
  cases p <;> simp [Phase.ready]

theorem State.busy_eq_not_ready : s.busy = !s.phase.ready := rfl

/-! ### The oracle: an answer depends on the oracle's two fields alone -/

theorem State.answer_congr (ha : t.answers = s.answers) (hd : t.draws = s.draws) : t.answer = s.answer := by
  simp [State.answer, ha, hd]

theorem State.drawn_congr (ha : t.answers = s.answers) (hd : t.draws = s.draws) :
    t.drawn.answers = s.drawn.answers ∧ t.drawn.draws = s.drawn.draws := by
  unfold State.drawn
  rw [ha]
  split <;> simp [hd]

/-! ### Courses -/

theorem generator_ready {body : State → State} (h : s.phase.ready = true) :
    generator body s = body s.clearValidity := by simp [generator, h]

theorem generator_busy {body : State → State} (h : s.phase.ready = false) : generator body s = s := by
  simp [generator, h]

section framer
variable {addr : Byte} {be : Bool} {frame : Option (List Byte)} {words : List Word} {settle : Word32}
  {response : Option (BitVec 3)}

theorem framer_ready (h : s.phase.ready = true) :
    framer addr be frame words settle response s = launch frame words s.clearValidity := by
  rcases Phase.ready_iff.1 h with h | h <;> simp [framer, h]

theorem framer_wr (h : s.phase = .wr) : framer addr be frame words settle response s = writeStep addr be s := by
  simp [framer, h]

theorem framer_st (h : s.phase = .st) :
    framer addr be frame words settle response s = settleStep settle response.isSome s := by
  simp [framer, h]

theorem framer_rd {rxn : BitVec 3} (h : s.phase = .rd) :
    framer addr be frame words settle (some rxn) s = readStep addr rxn s := by
  simp [framer, h]

theorem framer_rd_none (h : s.phase = .rd) : framer addr be frame words settle none s = s := by
  simp [framer, h]

end framer

/-! ### The steps of the sequencer -/

theorem launch_some {f : List Byte} {words : List Word} :
    launch (some f) words s = { s with txb := f, acc := accAfter words s.acc, phase := .wr } := rfl

theorem launch_none {words : List Word} : launch none words s = endErr .transportError 0 .frameTooLarge s := rfl

theorem writeStep_ok {addr : Byte} {be : Bool} {b : Vector Byte 18} (h : s.answer = .ok b) :
    writeStep addr be s = { s.drawn.emit (.write addr s.txb .ok) with phase := .st } := by
  simp [writeStep, h, BusAnswer.toWrite]

theorem writeStep_err {addr : Byte} (h : s.answer = .err) :
    writeStep addr false s = endErr .transportError 0 .writeFailed (s.drawn.emit (.write addr s.txb .err)) := by
  simp [writeStep, h, BusAnswer.toWrite]

theorem writeStep_bestEffort {addr : Byte} :
    writeStep addr true s = { s.drawn.emit (.write addr s.txb s.answer.toWrite) with phase := .st } := by
  simp [writeStep]

theorem settleStep_reads {settle : Word32} :
    settleStep settle true s = { s.emit (.delay settle) with phase := .rd } := rfl

theorem settleStep_ends {settle : Word32} : settleStep settle false s = endOk (s.emit (.delay settle)) := rfl

theorem readStep_err {addr : Byte} {rxn : BitVec 3} (h : s.answer = .err) :
    readStep addr rxn s =
      endErr .transportError 0 .readFailed (s.drawn.emit (.read addr (3 * rxn.toNat) .err)) := by
  simp [readStep, h, BusAnswer.toRead]

theorem readStep_ok {addr : Byte} {rxn : BitVec 3} {b : Vector Byte 18} (h : s.answer = .ok b) :
    readStep addr rxn s =
      acceptResponse (b.toList.take (3 * rxn.toNat))
        (s.drawn.emit (.read addr (3 * rxn.toNat) (.ok (b.toList.take (3 * rxn.toNat))))) := by
  simp [readStep, h, BusAnswer.toRead]

/-- What a successful BusRead leads to (R87): every word good and all exposed, or one bad and none. -/
theorem acceptResponse_cases (bytes : List Byte) (s : State) :
    (∃ words, checkWords bytes = .ok words ∧ acceptResponse bytes s =
      endOk { s with
        rxb := bytes, acc := accAfter ((responseWords bytes).map Prod.fst) s.acc, rxw := words, vRxw := true }) ∨
    (∃ i, checkWords bytes = .error i ∧ acceptResponse bytes s =
      endErr .checksumError i .checksumMismatch
        { s with rxb := bytes, acc := accAfter ((responseWords bytes).map Prod.fst) s.acc }) := by
  unfold acceptResponse
  cases h : checkWords bytes with
  | ok words => exact .inl ⟨words, rfl, rfl⟩
  | error i => exact .inr ⟨i, rfl, rfl⟩

/-- Everything one step of a framer request can do, by phase: acceptance (refused for size, or begun), the write (done, or
failed), the delay (a read follows, or the request ends), the read (failed, good, or with a bad word), and nothing in RD for
a kind that does not read. -/
theorem framer_cases (addr : Byte) (be : Bool) (frame : Option (List Byte)) (words : List Word) (settle : Word32)
    (response : Option (BitVec 3)) (s : State) :
    (s.phase.ready = true ∧ frame = none ∧ framer addr be frame words settle response s =
      endErr .transportError 0 .frameTooLarge s.clearValidity) ∨
    (s.phase.ready = true ∧ ∃ f, frame = some f ∧ framer addr be frame words settle response s =
      { s.clearValidity with txb := f, acc := accAfter words s.acc, phase := .wr }) ∨
    (s.phase = .wr ∧ (s.answer.toWrite = .ok ∨ be = true) ∧ framer addr be frame words settle response s =
      { s.drawn.emit (.write addr s.txb s.answer.toWrite) with phase := .st }) ∨
    (s.phase = .wr ∧ s.answer = .err ∧ be = false ∧ framer addr be frame words settle response s =
      endErr .transportError 0 .writeFailed (s.drawn.emit (.write addr s.txb .err))) ∨
    (s.phase = .st ∧ response ≠ none ∧ framer addr be frame words settle response s =
      { s.emit (.delay settle) with phase := .rd }) ∨
    (s.phase = .st ∧ response = none ∧ framer addr be frame words settle response s = endOk (s.emit (.delay settle))) ∨
    (s.phase = .rd ∧ response = none ∧ framer addr be frame words settle response s = s) ∨
    (s.phase = .rd ∧ ∃ rxn, response = some rxn ∧ s.answer = .err ∧ framer addr be frame words settle response s =
      endErr .transportError 0 .readFailed (s.drawn.emit (.read addr (3 * rxn.toNat) .err))) ∨
    (s.phase = .rd ∧ ∃ rxn b values, response = some rxn ∧ s.answer = .ok b ∧
      checkWords (b.toList.take (3 * rxn.toNat)) = .ok values ∧ framer addr be frame words settle response s =
      endOk { s.drawn.emit (.read addr (3 * rxn.toNat) (.ok (b.toList.take (3 * rxn.toNat)))) with
        rxb := b.toList.take (3 * rxn.toNat)
        acc := accAfter ((responseWords (b.toList.take (3 * rxn.toNat))).map Prod.fst) s.acc
        rxw := values, vRxw := true }) ∨
    (s.phase = .rd ∧ ∃ rxn b k, response = some rxn ∧ s.answer = .ok b ∧
      checkWords (b.toList.take (3 * rxn.toNat)) = .error k ∧ framer addr be frame words settle response s =
      endErr .checksumError k .checksumMismatch
        { s.drawn.emit (.read addr (3 * rxn.toNat) (.ok (b.toList.take (3 * rxn.toNat)))) with
          rxb := b.toList.take (3 * rxn.toNat)
          acc := accAfter ((responseWords (b.toList.take (3 * rxn.toNat))).map Prod.fst) s.acc }) := by
  by_cases hr : s.phase.ready = true
  · rw [framer_ready hr]
    cases frame with
    | none => exact .inl ⟨hr, rfl, rfl⟩
    | some f => exact .inr (.inl ⟨hr, f, rfl, rfl⟩)
  refine .inr (.inr ?_)
  cases hp : s.phase with
  | idle => simp [hp, Phase.ready] at hr
  | done => simp [hp, Phase.ready] at hr
  | wr =>
    rw [framer_wr hp]
    by_cases hw : s.answer.toWrite = .ok ∨ be = true
    · exact .inl ⟨rfl, hw, by simp [writeStep, hw]⟩
    · obtain ⟨ha, hb⟩ := not_or.1 hw
      have he : s.answer = .err := by cases h : s.answer <;> simp_all [BusAnswer.toWrite]
      have hf : be = false := by simpa using hb
      subst hf
      exact .inr (.inl ⟨rfl, he, rfl, writeStep_err he⟩)
  | st =>
    rw [framer_st hp]
    cases response with
    | none => exact .inr (.inr (.inr (.inl ⟨rfl, rfl, rfl⟩)))
    | some n => exact .inr (.inr (.inl ⟨rfl, by simp, rfl⟩))
  | rd =>
    refine .inr (.inr (.inr (.inr ?_)))
    cases response with
    | none => exact .inl ⟨rfl, rfl, framer_rd_none hp⟩
    | some n =>
      rw [framer_rd hp]
      refine .inr ?_
      cases ha : s.answer with
      | err => exact .inl ⟨rfl, n, rfl, rfl, readStep_err ha⟩
      | ok b =>
        rw [readStep_ok ha]
        rcases acceptResponse_cases (b.toList.take (3 * n.toNat))
          (s.drawn.emit (.read addr (3 * n.toNat) (.ok (b.toList.take (3 * n.toNat))))) with
          ⟨values, hv, he⟩ | ⟨k, hk, he⟩
        · exact .inr (.inl ⟨rfl, n, b, values, rfl, rfl, hv, by rw [he]; simp⟩)
        · exact .inr (.inr ⟨rfl, n, b, k, rfl, rfl, hk, by rw [he]; simp⟩)

/-! ### The response check (R88) -/

/-- A response frame made of word frames splits into its values, each with its own CRC (R64). -/
theorem responseWords_wordFrames (values : List Word) :
    responseWords (values.flatMap wordFrame) = values.map (fun v => (v, crcWord v)) := by
  induction values with
  | nil => rfl
  | cons v rest ih => simp [wordFrame, be16, responseWords, wordOf_be16, ih]


theorem responseWords_length : ∀ {m : Nat} {bytes : List Byte}, bytes.length = 3 * m → (responseWords bytes).length = m
  | 0, bytes, h => by
    have : bytes = [] := by simpa using h
    simp [this, responseWords]
  | m + 1, hi :: lo :: c :: rest, h => by
    have hr : rest.length = 3 * m := by simp at h; omega
    simp [responseWords, responseWords_length hr]
  | m + 1, [], h => by simp at h
  | m + 1, [_], h => by simp at h; omega
  | m + 1, [_, _], h => by simp at h; omega

theorem checkWords_ok_iff {bytes : List Byte} {words : List Word} :
    checkWords bytes = .ok words ↔
      (∀ w ∈ responseWords bytes, wordGood w = true) ∧ words = (responseWords bytes).map Prod.fst := by
  unfold checkWords
  cases h : (responseWords bytes).findIdx? (fun w => !wordGood w) with
  | none =>
    have hg : ∀ w ∈ responseWords bytes, wordGood w = true := by simpa using List.findIdx?_eq_none_iff.1 h
    simp only [Except.ok.injEq]
    exact ⟨fun e => ⟨hg, e.symm⟩, fun e => e.2.symm⟩
  | some i =>
    simp only [reduceCtorEq, false_iff, not_and]
    intro hg
    have := (List.findIdx?_eq_none_iff (p := fun w => !wordGood w) (xs := responseWords bytes)).2 (by simpa using hg)
    simp [this] at h

/-- A reported index is that of a word of the response. -/
theorem checkWords_error_lt {bytes : List Byte} {i : Nat} (h : checkWords bytes = .error i) :
    i < (responseWords bytes).length := by
  unfold checkWords at h
  split at h
  · simp at h
  · next j hj =>
    simp only [Except.error.injEq] at h
    subst h
    exact (List.findIdx?_eq_some_iff_findIdx_eq.1 hj).1

/-! ### The host's turn and the step -/

/-- The host's turn changes the port, the script and the counter, and nothing of the block (R29, R43). -/
theorem hostTurn_keeps_block {taken : Bool} (h : hostTurn taken s = .next t) :
    t = { s with port := t.port, hostNext := t.hostNext, draws := t.draws } := by
  cases taken
  all_goals
    simp only [hostTurn, Bool.false_eq_true, if_false, if_true] at h
    split at h
    · injection h with h; subst h; rfl
    · injection h with h; subst h; rfl
    · injection h with h; subst h; split <;> rfl
    · split at h
      · injection h with h; subst h; rfl
      · simp at h

/-- The invariant says nothing of the port, the host's script and the oracle, so the host's turn keeps it. -/
theorem State.inv_environment (port : Port) (moves : List HostMove) (answers : List BusAnswer) (draws : Nat) :
    ({ s with port := port, hostNext := moves, answers := answers, draws := draws } : State).Inv ↔ s.Inv := Iff.rfl

/-- With no script, the host withdraws the request the step took, and does nothing else. -/
theorem hostTurn_nil {taken : Bool} (h : s.hostNext = []) :
    hostTurn taken s = .next (if taken then s.withdraw else s) := by
  cases taken <;> simp [hostTurn, h]

theorem thenHost_eq_next {taken : Bool} {o : Host.Outcome State Fault Refusal} (h : thenHost taken o = .next t) :
    ∃ u, o = .next u ∧ hostTurn taken u = .next t := by
  cases o with
  | next u => exact ⟨u, rfl, h⟩
  | fault f => simp [thenHost] at h
  | refused r => simp [thenHost] at h

/-- Everything a step can do: accept what the port presents, go on with the request in REQ, or wait. -/
theorem step_cases (h : step s = .next t) :
    (s.phase.ready = true ∧ s.port.valid = true ∧ ∃ i u, decode s.port.req = .ok i ∧ exec i s.latch = .next u ∧
      hostTurn true u = .next t) ∨
    (s.phase.ready = false ∧ ∃ i u, decode s.req = .ok i ∧ exec i s = .next u ∧ hostTurn false u = .next t) ∨
    (s.phase.ready = true ∧ s.port.valid = false ∧ hostTurn false s = .next t) := by
  unfold step cycle at h
  split at h
  · next hb =>
    refine .inr (.inl ⟨by simpa [State.busy] using hb, ?_⟩)
    unfold progressStep at h
    split at h
    · simp at h
    · next i hi =>
      obtain ⟨u, hu, ht⟩ := thenHost_eq_next h
      exact ⟨i, u, hi, hu, ht⟩
  · next hb =>
    have hr : s.phase.ready = true := by simpa [State.busy] using hb
    split at h
    · next hv =>
      refine .inl ⟨hr, hv, ?_⟩
      unfold acceptStep at h
      split at h
      · simp at h
      · next i hi =>
        obtain ⟨u, hu, ht⟩ := thenHost_eq_next h
        exact ⟨i, u, hi, hu, ht⟩
    · next hv => exact .inr (.inr ⟨hr, by simpa using hv, h⟩)

/-- Everything a meaning can do: fault on the reserved kind, one of the three pure kinds' steps, or a framer's. -/
theorem exec_cases (i : Instr) (s : State) :
    (i = .reservedKind7 ∧ exec i s = .fault .illegalRequest) ∨
    (∃ input, i = .crc8 input ∧ exec i s =
      .next (generator (fun t => endOk { t with acc := crc8 input, crcOut := crc8 input, vCrcOut := true }) s)) ∨
    (∃ v, i = .wordEnc v ∧ exec i s =
      .next (generator (fun t => endOk
        { t with acc := crcWord v, enc := #v[v.extractLsb' 8 8, v.extractLsb' 0 8, crcWord v], vEnc := true }) s)) ∨
    (∃ hi lo c, i = .wordChk hi lo c ∧ exec i s =
      .next (generator (fun t =>
        if crcWord (wordOf hi lo) = c then endOk { t with acc := crcWord (wordOf hi lo) }
        else endErr .checksumError 0 .checksumMismatch { t with acc := crcWord (wordOf hi lo) }) s)) ∨
    (∃ addr be frame words settle response,
      exec i s = .next (framer addr be frame words settle response s)) := by
  cases i
  case reservedKind7 => exact .inl ⟨rfl, rfl⟩
  case crc8 input => exact .inr (.inl ⟨input, rfl, rfl⟩)
  case wordEnc v => exact .inr (.inr (.inl ⟨v, rfl, rfl⟩))
  case wordChk hi lo c => exact .inr (.inr (.inr (.inl ⟨hi, lo, c, rfl, rfl⟩)))
  all_goals exact .inr (.inr (.inr (.inr ⟨_, _, _, _, _, _, rfl⟩)))

end Sys2Proof.Machine
end

