-- ==== Sys2Proof/Laws/PerInstr.lean ====
section
/-! SUPPORT. Statements made per instruction: a catalog command expands to a well-formed request of one of the kinds, and a
request of a kind expands to itself (R71, R72). -/

namespace Sys2Proof.Laws.CatalogExpansion

/-- The expansion of a well-formed term is well formed, no catalog command, and its own expansion. -/
def Statement (i : Instr) : Prop :=
  i.wf = true → i.expand.wf = true ∧ Machine.catalogUse i.expand = none ∧ i.expand.expand = i.expand

theorem crc8 (input : List Byte) : Statement (.crc8 input) := fun h => ⟨h, rfl, rfl⟩
theorem wordEnc (value : Word) : Statement (.wordEnc value) := fun h => ⟨h, rfl, rfl⟩
theorem wordChk (hi lo crc : Byte) : Statement (.wordChk hi lo crc) := fun h => ⟨h, rfl, rfl⟩
theorem write (addr : Byte) (opcode : Word) (words : List Word) (settle : Word32) : Statement (.write addr opcode words settle) := fun h => ⟨h, rfl, rfl⟩
theorem writeRead (addr : Byte) (opcode : Word) (words : List Word) (rxn : BitVec 3) (settle : Word32) : Statement (.writeRead addr opcode words rxn settle) := fun h => ⟨h, rfl, rfl⟩
theorem read (addr : Byte) (opcode : Word) (rxn : BitVec 3) (settle : Word32) : Statement (.read addr opcode rxn settle) := fun h => ⟨h, rfl, rfl⟩
theorem writeByte (be : Bool) (addr byte : Byte) (settle : Word32) : Statement (.writeByte be addr byte settle) := fun h => ⟨h, rfl, rfl⟩
theorem reservedKind7 : Statement .reservedKind7 := fun h => ⟨h, rfl, rfl⟩
theorem startCont (dev : Byte) : Statement (.startCont dev) := fun _ => ⟨rfl, rfl, rfl⟩
theorem stopCont (dev : Byte) : Statement (.stopCont dev) := fun _ => ⟨rfl, rfl, rfl⟩
theorem setRht (dev : Byte) (tempRaw humidityRaw : Word) : Statement (.setRht dev tempRaw humidityRaw) := fun _ => ⟨rfl, rfl, rfl⟩
theorem setPressure (dev : Byte) (pressure : Word) : Statement (.setPressure dev pressure) := fun _ => ⟨rfl, rfl, rfl⟩
theorem measureSingle (dev : Byte) : Statement (.measureSingle dev) := fun _ => ⟨rfl, rfl, rfl⟩
theorem enterSleep (dev : Byte) : Statement (.enterSleep dev) := fun _ => ⟨rfl, rfl, rfl⟩
theorem exitSleep (dev : Byte) : Statement (.exitSleep dev) := fun _ => ⟨rfl, rfl, rfl⟩
theorem conditioning (dev : Byte) : Statement (.conditioning dev) := fun _ => ⟨rfl, rfl, rfl⟩
theorem softReset : Statement .softReset := fun _ => ⟨rfl, rfl, rfl⟩
theorem factoryReset (dev : Byte) : Statement (.factoryReset dev) := fun _ => ⟨rfl, rfl, rfl⟩
theorem selfTest (dev : Byte) : Statement (.selfTest dev) := fun _ => ⟨rfl, rfl, rfl⟩
theorem enableTest (dev : Byte) : Statement (.enableTest dev) := fun _ => ⟨rfl, rfl, rfl⟩
theorem disableTest (dev : Byte) : Statement (.disableTest dev) := fun _ => ⟨rfl, rfl, rfl⟩
theorem frc (dev : Byte) (target : Word) : Statement (.frc dev target) := fun _ => ⟨rfl, rfl, rfl⟩
theorem getProductId (dev : Byte) : Statement (.getProductId dev) := fun _ => ⟨rfl, rfl, rfl⟩
theorem readMeas (dev : Byte) : Statement (.readMeas dev) := fun _ => ⟨rfl, rfl, rfl⟩

end Sys2Proof.Laws.CatalogExpansion
end

