-- ==== Sys2Proof/Tests/Slice0.lean ====
section
/-! SUPPORT. The model's own tests: well-formedness, decoding, the vectors of 95_test_vectors.md (V-…, P1 to P8, cited by
name), and for every obligation with hypotheses a witness that meets them. -/

namespace Sys2Proof.Tests

set_option Elab.async false

open Sys2Proof Sys2Proof.Machine Sys2Proof.Claims

/-! ### Helpers -/

/-- The reset state with these bus answers lined up. -/
def withAnswers (answers : List BusAnswer) : State := { State.reset with answers := answers }

/-- A good answer whose first bytes are these. -/
def bytesAnswer (bytes : List Byte) : BusAnswer := .ok (packOpr bytes)

/-- What a next state shows; none for a stop. -/
def seen {α : Type} (f : State → α) : Host.Outcome State Fault Refusal → Option α
  | .next s => some (f s)
  | .fault _ => none
  | .refused _ => none

/-- The fault a stop names. -/
def faultOf : Host.Outcome State Fault Refusal → Option Fault
  | .fault f => some f
  | .next _ => none
  | .refused _ => none

/-- Phase, STATUS and V_STATUS after a request. -/
def ending (s : State) : Phase × Byte × Bool := (s.phase, s.status, s.vStatus)

/-- A state in which this READ of 0x1234 from 0x62 is in progress, at this phase (CTRL as in V-RD-1 and V-RD-3). -/
def reading (ctrl : Word32) (phase : Phase) (answers : List BusAnswer) : State :=
  { State.reset with
    phase := phase, req := ⟨ctrl, 0x00001234#32, 1#32, packOpr []⟩, txb := [0x12#8, 0x34#8], answers := answers
    trace := match phase with
      | .st => [.write 0x62#8 [0x12#8, 0x34#8] .ok]
      | .rd => [.write 0x62#8 [0x12#8, 0x34#8] .ok, .delay 1#32]
      | _ => [] }

/-- The identity block of P1. -/
def identityBlock : List Byte :=
  [0x09#8, 0x01#8, 0x73#8, 0x01#8, 0x8A#8, 0xD4#8, 0x00#8, 0x00#8, 0x81#8, 0x00#8, 0x01#8, 0xB0#8, 0x12#8, 0x34#8,
    0x37#8, 0xFF#8, 0xFF#8, 0xAC#8]

/-- The identity block of V-RD-4: byte 14 is 0x36. -/
def corruptBlock : List Byte := identityBlock.set 14 0x36#8

/-! ### Well-formedness (R52, R57, R58): the bound of each check, and a term just past it -/

theorem test_wf_crc8 :
    (Instr.crc8 (List.replicate 18 0#8)).wf = true ∧ (Instr.crc8 (List.replicate 19 0#8)).wf = false := by decide
theorem test_wf_write :
    (Instr.write 0x62#8 0#16 (List.replicate 7 0#16) 1#32).wf = true ∧
    (Instr.write 0x62#8 0#16 (List.replicate 8 0#16) 1#32).wf = false := by decide
theorem test_wf_write_read :
    (Instr.writeRead 0x62#8 0#16 (List.replicate 7 0#16) 7#3 1#32).wf = true ∧
    (Instr.writeRead 0x62#8 0#16 (List.replicate 8 0#16) 1#3 1#32).wf = false ∧
    (Instr.writeRead 0x62#8 0#16 [] 0#3 1#32).wf = false := by decide
theorem test_wf_read :
    (Instr.read 0x62#8 0#16 1#3 1#32).wf = true ∧ (Instr.read 0x62#8 0#16 0#3 1#32).wf = false := by decide

/-! ### Decoding -/

/-- Section 2.9: the twelve illegal descriptors. -/
theorem test_decode_illegal :
    let refused (ctrl cmd : Word32) (e : DecodeError) : Prop := decode ⟨ctrl, cmd, 0#32, packOpr []⟩ = .error e
    decode ⟨0x00000007#32, 0#32, 0#32, packOpr []⟩ = .ok .reservedKind7 ∧
    refused 0x62000083#32 0x00001234#32 .reservedBit ∧ refused 0x62000804#32 0x00001234#32 .reservedBit ∧
    refused 0x00022000#32 0#32 .reservedBit ∧ refused 0x00800001#32 0#32 .reservedBit ∧
    refused 0x00000001#32 0x80000000#32 .reservedBit ∧ refused 0x0000000B#32 0#32 .bestEffort ∧
    refused 0x00000008#32 0#32 .bestEffort ∧ refused 0x00013000#32 0#32 .lenTooLong ∧
    refused 0x0001F000#32 0#32 .lenTooLong ∧ refused 0x62000005#32 0x00001234#32 .noResponseWords ∧
    refused 0x62000014#32 0x00001234#32 .noResponseWords := by decide +kernel

/-- Don't-care fields: V-CRC8-14, V-WR-10, V-RD-8, V-WB-6. -/
theorem test_decode_dont_care :
    decode ⟨0x62002000#32, 0#32, 0#32, packOpr [0xBE#8, 0xEF#8]⟩ = .ok (.crc8 [0xBE#8, 0xEF#8]) ∧
    decode ⟨0x62000403#32, 0x00001234#32, 1#32, packOpr []⟩ = .ok (.write 0x62#8 0x1234#16 [] 1#32) ∧
    decode ⟨0x62000135#32, 0x00001234#32, 1#32, packOpr []⟩ = .ok (.read 0x62#8 0x1234#16 1#3 1#32) ∧
    decode ⟨0x62000076#32, 0x00770000#32, 5#32, packOpr []⟩ = .ok (.writeByte false 0x62#8 0x77#8 5#32) := by
  decide +kernel

/-- The words as the opcode table numbers them: CTRL from bit 0, CMD from bit 32; what nbits cuts off is 0 (R51). -/
theorem test_decode_table_word :
    decodeTableWord 64 0x0000BEEF00000001 = some (.wordEnc 0xBEEF#16) ∧
    decodeTableWord 32 0xBEEF00000001 = some (.wordEnc 0x0000#16) ∧
    decodeTableWord 112 0xEFBE000000000000000000002000 = some (.crc8 [0xBE#8, 0xEF#8]) ∧
    decodeTableWord 32 0x00000083 = none := by decide +kernel

/-- The words of table 2.10 with their opcode or byte `op` left as it is there, any value: KIND 3 with no, one and two payload
words. -/
theorem test_decode_write_commands (op : Word) (ms : Word32) :
    decode ⟨0x62000003#32, cmdWord 0#8 op, ms, packOpr []⟩ = .ok (.write 0x62#8 op [] ms) ∧
    decode ⟨0x62000013#32, cmdWord 0#8 op, ms, packOpr [0x01#8, 0xF4#8]⟩ = .ok (.write 0x62#8 op [0x01F4#16] ms) ∧
    decode ⟨0x62000023#32, cmdWord 0#8 op, ms, packOpr [0x66#8, 0x66#8, 0x80#8, 0x00#8]⟩ =
      .ok (.write 0x62#8 op [0x6666#16, 0x8000#16] ms) := by
  rw [show (0x62000003#32 : Word32) = ctrlWord 3#3 false 0#3 0#3 0#5 0x62#8 from rfl,
    show (0x62000013#32 : Word32) = ctrlWord 3#3 false 1#3 0#3 0#5 0x62#8 from rfl,
    show (0x62000023#32 : Word32) = ctrlWord 3#3 false 2#3 0#3 0#5 0x62#8 from rfl]
  refine ⟨?_, ?_, ?_⟩
  all_goals simp [decode, Request.reservedClear_mk, Request.words, Request.oprBytes]; decide

/-- KIND 4 (FRC) and KIND 5 with one, four and six response words. -/
theorem test_decode_reading_commands (op : Word) (ms : Word32) :
    decode ⟨0x62000114#32, cmdWord 0#8 op, ms, packOpr [0x81#8, 0x90#8]⟩ =
      .ok (.writeRead 0x62#8 op [0x8190#16] 1#3 ms) ∧
    decode ⟨0x62000105#32, cmdWord 0#8 op, ms, packOpr []⟩ = .ok (.read 0x62#8 op 1#3 ms) ∧
    decode ⟨0x62000405#32, cmdWord 0#8 op, ms, packOpr []⟩ = .ok (.read 0x62#8 op 4#3 ms) ∧
    decode ⟨0x62000605#32, cmdWord 0#8 op, ms, packOpr []⟩ = .ok (.read 0x62#8 op 6#3 ms) := by
  rw [show (0x62000114#32 : Word32) = ctrlWord 4#3 false 1#3 1#3 0#5 0x62#8 from rfl,
    show (0x62000105#32 : Word32) = ctrlWord 5#3 false 0#3 1#3 0#5 0x62#8 from rfl,
    show (0x62000405#32 : Word32) = ctrlWord 5#3 false 0#3 4#3 0#5 0x62#8 from rfl,
    show (0x62000605#32 : Word32) = ctrlWord 5#3 false 0#3 6#3 0#5 0x62#8 from rfl]
  refine ⟨?_, ?_, ?_, ?_⟩ <;> simp [decode, Request.reservedClear_mk, Request.words, Request.oprBytes]
  rfl

/-- KIND 6: EXIT_SLEEP's form and SOFT_RESET's. -/
theorem test_decode_byte_commands (op : Byte) (ms : Word32) :
    decode ⟨0x6200000E#32, cmdWord op 0#16, ms, packOpr []⟩ = .ok (.writeByte true 0x62#8 op ms) ∧
    decode ⟨0x00000006#32, cmdWord op 0#16, ms, packOpr []⟩ = .ok (.writeByte false 0x00#8 op ms) := by
  rw [show (0x6200000E#32 : Word32) = ctrlWord 6#3 true 0#3 0#3 0#5 0x62#8 from rfl,
    show (0x00000006#32 : Word32) = ctrlWord 6#3 false 0#3 0#3 0#5 0x00#8 from rfl]
  refine ⟨?_, ?_⟩ <;> simp [decode, Request.reservedClear_mk]

/-- Table 2.10, the commands of KIND 3: CTRL, CMD, SETTLE, OPR. -/
theorem test_encode_write_commands :
    encode (.startCont 0x62#8) = ⟨0x62000003#32, cmdWord 0#8 Config.opcStartCont, 0x000003E8#32, packOpr []⟩ ∧
    encode (.stopCont 0x62#8) = ⟨0x62000003#32, cmdWord 0#8 Config.opcStopCont, 0x000004B0#32, packOpr []⟩ ∧
    encode (.setRht 0x62#8 0x6666#16 0x8000#16) =
      ⟨0x62000023#32, cmdWord 0#8 Config.opcSetRht, 1#32, packOpr [0x66#8, 0x66#8, 0x80#8, 0x00#8]⟩ ∧
    encode (.setPressure 0x62#8 0x01F4#16) =
      ⟨0x62000013#32, cmdWord 0#8 Config.opcSetPressure, 1#32, packOpr [0x01#8, 0xF4#8]⟩ ∧
    encode (.measureSingle 0x62#8) = ⟨0x62000003#32, cmdWord 0#8 Config.opcMeasureSingle, 0x000001F4#32, packOpr []⟩ ∧
    encode (.enterSleep 0x62#8) = ⟨0x62000003#32, cmdWord 0#8 Config.opcEnterSleep, 1#32, packOpr []⟩ ∧
    encode (.conditioning 0x62#8) = ⟨0x62000003#32, cmdWord 0#8 Config.opcConditioning, 0x000055F0#32, packOpr []⟩ ∧
    encode (.enableTest 0x62#8) = ⟨0x62000003#32, cmdWord 0#8 Config.opcEnableTest, 0#32, packOpr []⟩ ∧
    encode (.disableTest 0x62#8) = ⟨0x62000003#32, cmdWord 0#8 Config.opcDisableTest, 0#32, packOpr []⟩ :=
  ⟨rfl, rfl, rfl, rfl, rfl, rfl, rfl, rfl, rfl⟩

/-- Table 2.10, the commands of KINDs 4, 5 and 6. -/
theorem test_encode_other_commands :
    encode (.exitSleep 0x62#8) = ⟨0x6200000E#32, cmdWord Config.exitSleepByte 0#16, 5#32, packOpr []⟩ ∧
    encode .softReset = ⟨0x00000006#32, cmdWord Config.softResetByte 0#16, 0x0000000A#32, packOpr []⟩ ∧
    encode (.factoryReset 0x62#8) = ⟨0x62000105#32, cmdWord 0#8 Config.opcFactoryReset, 0x0000005A#32, packOpr []⟩ ∧
    encode (.selfTest 0x62#8) = ⟨0x62000105#32, cmdWord 0#8 Config.opcSelfTest, 0x00000168#32, packOpr []⟩ ∧
    encode (.frc 0x62#8 0x8190#16) =
      ⟨0x62000114#32, cmdWord 0#8 Config.opcFrc, 0x0000005A#32, packOpr [0x81#8, 0x90#8]⟩ ∧
    encode (.getProductId 0x62#8) = ⟨0x62000605#32, cmdWord 0#8 Config.opcGetProductId, 1#32, packOpr []⟩ ∧
    encode (.readMeas 0x62#8) = ⟨0x62000405#32, cmdWord 0#8 Config.opcReadMeas, 1#32, packOpr []⟩ :=
  ⟨rfl, rfl, rfl, rfl, rfl, rfl, rfl⟩

/-! ### CRC -/

/-- Section 2.1, V-STEP-1: the eight values of the first byte of crc8([0, 0]), then its result. -/
theorem test_crc8_iterations :
    (List.range 9).map (fun n => crc8Iterate n 0xFF#8) =
      [0xFF#8, 0xCF#8, 0xAF#8, 0x6F#8, 0xDE#8, 0x8D#8, 0x2B#8, 0x56#8, 0xAC#8] ∧
    crc8 [0x00#8, 0x00#8] = 0x81#8 := by decide +kernel

/-- Section 2.2. -/
theorem test_crc8_vectors :
    crc8 [0x00#8] = 0xAC#8 ∧ crc8 [0x01#8] = 0x9D#8 ∧ crc8 [0xBE#8, 0xEF#8] = 0x92#8 ∧ crc8 [0x80#8] = 0xD6#8 ∧
    crc8 [0x31#8] = 0x58#8 ∧ crc8 [0x01#8, 0x02#8, 0x03#8, 0x04#8] = 0x29#8 ∧ crc8 identityBlock = 0x84#8 ∧
    crc8 (List.replicate 18 0x00#8) = 0x33#8 ∧ crc8 (List.replicate 18 0xFF#8) = 0xB7#8 := by decide +kernel

/-- Section 2.3. -/
theorem test_word_frames :
    wordFrame 0x0901#16 = [0x09#8, 0x01#8, 0x73#8] ∧ wordFrame 0x1234#16 = [0x12#8, 0x34#8, 0x37#8] ∧
    wordFrame 0xFF00#16 = [0xFF#8, 0x00#8, 0x00#8] ∧ wordFrame 0x81C8#16 = [0x81#8, 0xC8#8, 0xA8#8] ∧
    wordFrame 0xAAAA#16 = [0xAA#8, 0xAA#8, 0xB7#8] := by decide +kernel

/-! ### The generator -/

/-- V-CRC8-5. -/
theorem test_crc8 :
    seen (fun s => (ending s, s.crcOut, s.vCrcOut)) (exec (.crc8 [0xBE#8, 0xEF#8]) State.reset) =
      some ((.done, 0x00#8, true), 0x92#8, true) := by decide +kernel

/-- Section 2.3, 0xBEEF. -/
theorem test_word_enc :
    seen (fun s => (ending s, s.enc, s.vEnc)) (exec (.wordEnc 0xBEEF#16) State.reset) =
      some ((.done, 0x00#8, true), #v[0xBE#8, 0xEF#8, 0x92#8], true) := by decide +kernel

/-- V-CHK-1 and V-CHK-11. -/
theorem test_word_chk_ok :
    seen (fun s => (ending s, s.trace)) (exec (.wordChk 0xBE#8 0xEF#8 0x92#8) State.reset) =
      some ((.done, 0x00#8, true), []) ∧
    seen ending (exec (.wordChk 0xD0#8 0x04#8 0x81#8) State.reset) = some (.done, 0x00#8, true) := by decide +kernel

/-- V-CHK-5: bit 7 of the first byte flipped. -/
theorem test_word_chk_error :
    seen (fun s => (ending s, s.trace)) (exec (.wordChk 0x3E#8 0xEF#8 0x92#8) State.reset) =
      some ((.done, 0x02#8, true), [.log .checksumMismatch]) := by decide +kernel

/-! ### The framer -/

/-- V-WR-3's acceptance: the largest frame, in TXB. -/
theorem test_write_frame :
    seen (fun s => (s.phase, s.txb, s.txl))
      (exec (.write 0x62#8 0x1234#16 [0x0000#16, 0xFFFF#16, 0x8000#16, 0x0001#16] 1#32) State.reset) =
      some (.wr, [0x12#8, 0x34#8, 0x00#8, 0x00#8, 0x81#8, 0xFF#8, 0xFF#8, 0xAC#8, 0x80#8, 0x00#8, 0xA2#8, 0x00#8,
        0x01#8, 0xB0#8], 14) := by decide +kernel

/-- V-WR-4: five words. -/
theorem test_write_too_large :
    seen (fun s => (ending s, s.trace)) (exec (.write 0x62#8 0x1234#16 (List.replicate 5 0#16) 1#32) State.reset) =
      some ((.done, 0x01#8, true), [.log .frameTooLarge]) := by decide +kernel

/-- V-WRR-8: both limits exceeded, one L. -/
theorem test_write_read_too_large :
    seen (fun s => (ending s, s.trace))
      (exec (.writeRead 0x62#8 0x1234#16 (List.replicate 5 0#16) 7#3 90#32) State.reset) =
      some ((.done, 0x01#8, true), [.log .frameTooLarge]) := by decide +kernel

/-- V-RD-4: the fifth word bad, STATUS 0x12 and no word exposed. -/
theorem test_read_bad_word :
    seen (fun s => (ending s, s.vRxw, s.rxl))
      (exec (.read 0x62#8 0x1234#16 6#3 1#32) (reading 0x62000605#32 .rd [bytesAnswer corruptBlock])) =
      some ((.done, 0x12#8, true), false, 18) := by decide +kernel

/-- V-RD-3: the identity block's six words. -/
theorem test_read_words :
    seen (fun s => (ending s, s.rxw, s.rxwn))
      (exec (.read 0x62#8 0x1234#16 6#3 1#32) (reading 0x62000605#32 .rd [bytesAnswer identityBlock])) =
      some ((.done, 0x00#8, true), [0x0901#16, 0x018A#16, 0x0000#16, 0x0001#16, 0x1234#16, 0xFFFF#16], 6) := by
  decide +kernel

/-- V-WB-4: the best-effort write fails, and the request goes on. -/
theorem test_write_byte_best_effort :
    seen (fun s => (s.phase, s.trace))
      (exec (.writeByte true 0x62#8 0x77#8 5#32) { withAnswers [.err] with phase := .wr, txb := [0x77#8] }) =
      some (.st, [.write 0x62#8 [0x77#8] .err]) := by decide +kernel

/-- V-WB-2: a strict one ends. -/
theorem test_write_byte_error :
    seen (fun s => (ending s, s.trace))
      (exec (.writeByte false 0x62#8 0x77#8 5#32) { withAnswers [.err] with phase := .wr, txb := [0x77#8] }) =
      some ((.done, 0x01#8, true), [.write 0x62#8 [0x77#8] .err, .log .writeFailed]) := by decide +kernel

/-- V-WR-7: a delay of 0 ms is an event. -/
theorem test_settle_zero :
    seen (fun s => (ending s, s.trace)) (exec (.write 0x62#8 0x1234#16 [] 0#32) { withAnswers [] with phase := .st }) =
      some ((.done, 0x00#8, true), [.delay 0#32]) := by decide +kernel

/-! ### Steps -/

/-- Section 2.9: a reserved bit stops the model at acceptance; so does P8's KIND 7. -/
theorem test_step_illegal :
    faultOf (step (State.reset.placing ⟨0x62000083#32, 0x00001234#32, 0#32, packOpr []⟩)) = some .illegalRequest ∧
    faultOf (step (State.reset.placing ⟨0x00000007#32, 0#32, 0#32, packOpr []⟩)) = some .illegalRequest := by
  decide +kernel

/-- The first step after reset runs the table word placed for it, latches it, and the host withdraws it. -/
theorem test_step_first :
    seen (fun s => (ending s, s.req.ctrl, s.port.valid)) (step (State.reset.withFetchWord 64 0x0000BEEF00000001)) =
      some ((.done, 0x00#8, true), 0x00000001#32, false) := by decide +kernel

/-- A host script: CRC_OUT can be read after P5's first request, ENC cannot (its validity bit is 0). -/
theorem test_host_reads :
    let s : State := State.reset.placing ⟨0x00002000#32, 0#32, 0#32, packOpr [0xBE#8, 0xEF#8]⟩
    seen (fun t => (t.crcOut, t.hostNext)) (step { s with hostNext := [.read .crcOut] }) = some (0x92#8, []) ∧
    faultOf (step { s with hostNext := [.read (.enc 0)] }) = some .unwrittenResult := by decide +kernel

/-! ### The catalog's frames and delays (table 2.10) -/

theorem test_start_cont :
    seen State.trace (runExec (.startCont 0x62#8) 3 (withAnswers [bytesAnswer []])) =
      some [.write 0x62#8 (be16 Config.opcStartCont) .ok, .delay 0x000003E8#32] := rfl
theorem test_set_rht :
    seen State.txb (exec (.setRht 0x62#8 0x6666#16 0x8000#16) State.reset) =
      some (be16 Config.opcSetRht ++ [0x66#8, 0x66#8, 0x93#8, 0x80#8, 0x00#8, 0xA2#8]) := by
  have h : wordFrame 0x6666#16 ++ wordFrame 0x8000#16 = [0x66#8, 0x66#8, 0x93#8, 0x80#8, 0x00#8, 0xA2#8] := by
    decide +kernel
  rw [← h]
  rfl
theorem test_exit_sleep :
    seen State.trace (runExec (.exitSleep 0x62#8) 3 (withAnswers [.err])) =
      some [.write 0x62#8 [Config.exitSleepByte] .err, .delay 5#32] := rfl
theorem test_soft_reset :
    seen State.trace (runExec .softReset 3 (withAnswers [bytesAnswer []])) =
      some [.write 0x00#8 [Config.softResetByte] .ok, .delay 10#32] := rfl
theorem test_self_test :
    seen State.trace (runExec (.selfTest 0x62#8) 4 (withAnswers [bytesAnswer [], .err])) =
      some [.write 0x62#8 (be16 Config.opcSelfTest) .ok, .delay 360#32, .read 0x62#8 3 .err, .log .readFailed] := rfl
theorem test_frc :
    seen State.trace (runExec (.frc 0x62#8 0x8190#16) 2 (withAnswers [.err])) =
      some [.write 0x62#8 (be16 Config.opcFrc ++ wordFrame 0x8190#16) .err, .log .writeFailed] := rfl
/-- P6: the measurement's fourth word is corrupt. -/
theorem test_read_meas :
    seen (fun s => (ending s, s.vRxw))
      (exec (.readMeas 0x62#8) { withAnswers [bytesAnswer [0x01#8, 0x90#8, 0x4C#8, 0x40#8, 0x00#8, 0x08#8, 0x19#8,
        0x9A#8, 0xCE#8, 0x00#8, 0x00#8, 0x80#8]] with phase := .rd }) =
      some ((.done, 0x0E#8, true), false) := by decide +kernel

/-! ### Witnesses: for each obligation with hypotheses, a state and operands that meet them -/

/-- A ready state that is not reset: DONE, with a result exposed. -/
def doneState : State :=
  { State.reset with phase := .done, vStatus := true, vCrcOut := true, crcOut := 0xFF#8, acc := 0xFF#8 }

theorem witness_reset_meets_Inv : State.reset.Inv := by
  have hd : decode State.reset.req = .ok (.crc8 []) := by decide +kernel
  refine ⟨?_, ?_, ?_, ?_, ?_⟩
  · unfold State.statusLegal; decide
  · unfold State.buffersFit; decide
  · exact ⟨rfl, ⟨rfl, rfl, rfl⟩, rfl⟩
  · exact fun h => by cases h
  · unfold State.resultsBelong
    rw [hd]
    exact ⟨rfl, rfl, fun h => by cases h⟩
theorem witness_done_meets_Inv : doneState.Inv := by
  have hd : decode doneState.req = .ok (.crc8 []) := by decide +kernel
  refine ⟨?_, ?_, ?_, ?_, ?_⟩
  · unfold State.statusLegal; decide
  · unfold State.buffersFit; decide
  · exact ⟨rfl, .inr rfl⟩
  · exact fun h => by cases h
  · unfold State.resultsBelong
    rw [hd]
    exact ⟨rfl, rfl, fun _ => rfl⟩
/-- A READ of one word, and of six, in progress at each busy phase. -/
theorem witness_busy_meets_Inv (phase : Phase) (h : phase.ready = false) (answers : List BusAnswer) (rxn : BitVec 3)
    (ctrl : Word32) (hr : (ctrl = 0x62000105#32 ∧ rxn = 1#3) ∨ (ctrl = 0x62000605#32 ∧ rxn = 6#3)) :
    (reading ctrl phase answers).Inv := by
  have hd : decode (reading ctrl phase answers).req = .ok (.read 0x62#8 0x1234#16 rxn 1#32) := by
    rcases hr with ⟨rfl, rfl⟩ | ⟨rfl, rfl⟩
    · exact show decode ⟨0x62000105#32, 0x00001234#32, 1#32, packOpr []⟩ = _ by decide +kernel
    · exact show decode ⟨0x62000605#32, 0x00001234#32, 1#32, packOpr []⟩ = _ by decide +kernel
  refine ⟨?_, ?_, ?_, ?_, ?_⟩
  · exact show State.reset.statusLegal by unfold State.statusLegal; decide
  · exact ⟨show 2 ≤ 16 by decide, show 0 ≤ 18 by decide, show 0 ≤ 6 by decide⟩
  · cases phase <;> first | (simp [Phase.ready] at h; done) | exact ⟨rfl, rfl, rfl, rfl⟩
  · intro _
    rw [hd]
    rcases hr with ⟨-, rfl⟩ | ⟨-, rfl⟩ <;> rfl
  · unfold State.resultsBelong
    rw [hd]
    exact ⟨rfl, rfl, fun h => by cases h⟩

/-- Two ready states, the hypothesis of the generator's, the framer's and the catalog's statements. -/
theorem witness_ready : State.reset.phase.ready = true ∧ doneState.phase.ready = true := by decide

theorem witness_DecodeEncodeRoundTrip :
    (Instr.write 0x62#8 0x1234#16 (List.replicate 7 0x8000#16) 1#32).wf = true ∧
    catalogUse (.write 0x62#8 0x1234#16 (List.replicate 7 0x8000#16) 1#32) = none ∧
    (Instr.readMeas 0x62#8).wf = true ∧ catalogUse (.readMeas 0x62#8) ≠ none := by decide
theorem witness_DecodedRequestsAreWellFormedKinds :
    decode ⟨0x62000605#32, 0x00001234#32, 1#32, packOpr []⟩ = .ok (.read 0x62#8 0x1234#16 6#3 1#32) := by decide +kernel
/-- A legal descriptor of each kind, KIND 0 to KIND 6. -/
theorem witness_LegalRequestsDecodeByTheirFields :
    let legal (ctrl : Word32) : Prop := ¬ illegal ⟨ctrl, 0x00001234#32, 1#32, packOpr []⟩
    legal 0x00012000#32 ∧ legal 0x00000001#32 ∧ legal 0x00000002#32 ∧ legal 0x62000073#32 ∧ legal 0x62000774#32 ∧
    legal 0x62000605#32 ∧ legal 0x6200000E#32 := by
  unfold illegal
  refine ⟨?_, ?_, ?_, ?_, ?_, ?_, ?_⟩ <;> decide +kernel
/-- V-CRC8-5 and V-CRC8-14 are the same request by different descriptors. -/
theorem witness_DontCareFieldsAreIgnored :
    sameUsedFields ⟨0x00002000#32, 0#32, 0#32, packOpr [0xBE#8, 0xEF#8]⟩
      ⟨0x62002000#32, 0#32, 7#32, packOpr [0xBE#8, 0xEF#8, 0x01#8]⟩ := by
  unfold sameUsedFields
  decide +kernel
/-- An illegal descriptor, an oversize one (V-WRR-8) and one that is neither (V-WR-1), each presented to a ready block. -/
theorem witness_ExactlyIllegalRequestsFault :
    let at_ (r : Request) : State := State.reset.placing r
    let kind7 : Request := ⟨0x00000007#32, 0#32, 0#32, packOpr []⟩
    let big : Request := ⟨0x62000754#32, 0x00001234#32, 90#32, packOpr []⟩
    let good : Request := ⟨0x62000003#32, 0x00001234#32, 1#32, packOpr []⟩
    ((at_ kind7).phase.ready = true ∧ (at_ kind7).port.valid = true ∧ illegal (at_ kind7).port.req) ∧
    ((at_ big).phase.ready = true ∧ (at_ big).hostNext = [] ∧ ¬ illegal (at_ big).port.req ∧
      oversize (at_ big).port.req) ∧
    (¬ illegal (at_ good).port.req ∧ ¬ oversize (at_ good).port.req) := by
  unfold illegal oversize
  decide +kernel
theorem witness_CatalogCommandsEncodeTheirRomRow :
    catalogUse (.setRht 0x62#8 0x6666#16 0x8000#16) = some (2, 0x62#8, [0x6666#16, 0x8000#16]) ∧
    catalogUse (.readMeas 0x62#8) = some (15, 0x62#8, []) := by decide
/-- V-WR-1 and WORD_ENC, presented; the second goes to a next state. -/
theorem witness_StepRunsThePresentedRequest :
    let s := State.reset.placing ⟨0x00000001#32, 0x0000BEEF#32, 0#32, packOpr []⟩
    s.phase.ready = true ∧ s.port.valid = true ∧ s.hostNext = [] ∧ decode s.port.req = .ok (.wordEnc 0xBEEF#16) ∧
    ∃ t, exec (.wordEnc 0xBEEF#16) { s with req := s.port.req } = .next t :=
  ⟨by decide, by decide, by decide, by decide +kernel, _, rfl⟩
theorem witness_BusyStepRunsTheLatchedRequest :
    (reading 0x62000105#32 .wr []).phase.ready = false ∧ (reading 0x62000105#32 .wr []).hostNext = [] ∧
    decode (reading 0x62000105#32 .wr []).req = .ok (.read 0x62#8 0x1234#16 1#3 1#32) := by decide +kernel
theorem witness_ReadyBlockWaitsForARequest :
    State.reset.phase.ready = true ∧ State.reset.port.valid = false ∧ State.reset.hostNext = [] := by decide
theorem witness_PlacedEncodingRunsNext :
    (Instr.crc8 (List.replicate 18 0#8)).wf = true ∧ Instr.softReset.wf = true ∧ Instr.reservedKind7.wf = true := by
  decide
theorem witness_BusyStepIgnoresThePort :
    (reading 0x62000105#32 .rd []).phase.ready = false ∧ (reading 0x62000105#32 .rd []).hostNext = [] := by decide
/-- Validity bits 0 and 1, and RXW's last index below RXWN. -/
theorem witness_ResultReadsNeedTheirValidityBit :
    let s : State := { doneState with vRxw := true, rxw := List.replicate 6 0xFFFF#16 }
    State.reset.vRxw = false ∧ s.vRxw = true ∧ s.rxw[(5 : Fin 6).val]? = some 0xFFFF#16 := by decide
/-- A read that faults, and one that answers. -/
theorem witness_HostReadsChangeNothingOrFault :
    let s (signal : StatusSignal) : State := { State.reset with hostNext := [.read signal] }
    ((s .status).phase.ready = true ∧ (s .status).port.valid = false ∧
      hostRead .status (s .status) = .error .unwrittenResult) ∧
    hostRead .phase (s .phase) = .ok 0#16 := by decide
/-- Any port and script beside the reset state. -/
theorem witness_port_and_script_meet_Inv (port : Port) (moves : List HostMove) :
    ({ State.reset with port := port, hostNext := moves } : State).Inv :=
  (State.inv_environment port moves [] 0).2 witness_reset_meets_Inv
/-- Each of the three outcomes from a state that meets the invariant; the last also by a read of RXW after a step of the
block's own, and not by a read of a flag or of a result that is valid. -/
theorem witness_OnlyTheTwoModelFaultsStop :
    seen State.phase (step State.reset) = some .idle ∧
    faultOf (step (State.reset.placing ⟨0x00000007#32, 0#32, 0#32, packOpr []⟩)) = some .illegalRequest ∧
    faultOf (step { State.reset with hostNext := [.read .status] }) = some .unwrittenResult ∧
    faultOf (step { reading 0x62000105#32 .rd [.err] with hostNext := [.read (.rxw 0)] }) = some .unwrittenResult ∧
    faultOf (step { reading 0x62000105#32 .rd [.err] with hostNext := [.read .status] }) = none ∧
    faultOf (step { State.reset with hostNext := [.read .vRxw] }) = none := by
  refine ⟨?_, ?_, ?_, ?_, ?_, ?_⟩ <;> decide +kernel
/-- A signal that is unwritten at reset, two that are not, and the block's own step where it waits. -/
theorem witness_OnlyTheTwoModelFaultsStop_third :
    unwritten .status State.reset ∧ ¬ unwritten .phase State.reset ∧ ¬ unwritten .status doneState ∧
    ownStep State.reset State.reset :=
  ⟨rfl, fun h => h, (by intro h; cases h), Or.inr (.inl ⟨rfl, rfl, rfl⟩)⟩
/-- IDLE and DONE under the invariant. -/
theorem witness_StatusPortShowsPhaseAndFlags :
    (State.reset.Inv ∧ State.reset.phase = .idle) ∧ (doneState.Inv ∧ doneState.phase = .done) :=
  ⟨⟨witness_reset_meets_Inv, rfl⟩, witness_done_meets_Inv, rfl⟩
/-- R16's numbering and R28's flags, in each phase. -/
theorem test_status_port_phase :
    let busy (p : Phase) : State := reading 0x62000105#32 p []
    hostRead .phase State.reset = .ok 0#16 ∧ hostRead .reqReady State.reset = .ok 1#16 ∧
    hostRead .phase (busy .wr) = .ok 1#16 ∧ hostRead .phase (busy .st) = .ok 2#16 ∧
    hostRead .phase (busy .rd) = .ok 3#16 ∧ hostRead .busy (busy .rd) = .ok 1#16 ∧
    hostRead .phase doneState = .ok 4#16 ∧ hostRead .done doneState = .ok 1#16 := by decide
/-- A right CRC byte (its value 0), and a wrong one. -/
theorem witness_WordChkComparesCrcBytes :
    crcWord (0xFF#8 ++ 0x00#8 : Word) = 0x00#8 ∧ crcWord (0xFF#8 ++ 0xFF#8 : Word) ≠ 0xFF#8 := by decide +kernel
/-- The boundary values of each clause: five words and four, RXN 7 and 6. -/
theorem witness_FrameLimitDecidesAtAcceptance :
    State.reset.phase.ready = true ∧ 5 ≤ (List.replicate 5 0#16).length ∧ ¬ 5 ≤ (List.replicate 4 0#16).length ∧
    (7#3 : BitVec 3) = 7#3 ∧ (6#3 : BitVec 3) ≠ 7#3 := by decide
/-- Zero and four payload words; a ready state whose write is answered ok, and one whose write fails. -/
theorem witness_WriteSendsItsFrameAndSettles :
    ([] : List Word).length ≤ 4 ∧ (List.replicate 4 0#16).length ≤ 4 ∧
    (withAnswers [bytesAnswer []]).phase.ready = true ∧ (withAnswers [bytesAnswer []]).answer = bytesAnswer [] ∧
    (withAnswers [.err]).answer = .err := by decide
/-- For one response word and for six: the read fails, every word is good, or some word is bad (V-RD-1 to V-RD-4). -/
theorem witness_ReadsAfterSettling :
    let s (b : BusAnswer) : State := withAnswers [bytesAnswer [], b]
    (s .err).phase.ready = true ∧ (s .err).answer = bytesAnswer [] ∧ (s .err).drawn.answer = .err ∧
    (s (bytesAnswer identityBlock)).drawn.answer = .ok (packOpr identityBlock) ∧
    (packOpr identityBlock).toList.take (3 * 6) =
      [0x0901#16, 0x018A#16, 0x0000#16, 0x0001#16, 0x1234#16, 0xFFFF#16].flatMap wordFrame ∧
    (packOpr [0x00#8, 0x00#8, 0x81#8]).toList.take (3 * 1) = [0x0000#16].flatMap wordFrame ∧
    checkWords ((packOpr corruptBlock).toList.take (3 * 6)) = .error 4 ∧
    checkWords ((packOpr [0x00#8, 0x00#8, 0x80#8]).toList.take (3 * 1)) = .error 0 := by
  refine ⟨?_, ?_, ?_, ?_, ?_, ?_, ?_, ?_⟩ <;> decide +kernel
/-- RXN at both ends of the range that reads, beside four payload words. -/
theorem witness_WriteReadReturnsCheckedWords :
    (List.replicate 4 0#16).length ≤ 4 ∧ (1#3 : BitVec 3) ≠ 0#3 ∧ (1#3 : BitVec 3) ≠ 7#3 ∧ (6#3 : BitVec 3) ≠ 0#3 ∧
    (6#3 : BitVec 3) ≠ 7#3 := by decide
/-- No word, six good words, and a bad fifth word. -/
theorem witness_ResponseCheckReportsLowestBadWord :
    ([] : List Byte).length = 3 * 0 ∧ identityBlock.length = 3 * 6 ∧ corruptBlock.length = 3 * 6 ∧
    checkWords [] = .ok [] ∧ checkWords corruptBlock = .error 4 := by decide +kernel
theorem witness_FramerRequestsMakeACompleteTrace :
    let s := State.reset.placing ⟨0x62000605#32, 0x00001234#32, 1#32, packOpr []⟩
    s.phase.ready = true ∧ s.port.valid = true ∧ s.hostNext = [] ∧
    decode s.port.req = .ok (.read 0x62#8 0x1234#16 6#3 1#32) ∧ isFramer (.read 0x62#8 0x1234#16 6#3 1#32) = true := by
  decide +kernel
theorem witness_RequestEndings : 0 ≤ 5 ∧ 5 ≤ 5 := by decide
/-- An acceptance, a write, a delay and a read step, each from a state that meets the invariant and the trace order. -/
theorem witness_StepKeepsInvariant_and_EventOrder :
    (State.reset.placing ⟨0x62000105#32, 0x00001234#32, 1#32, packOpr []⟩).traceOrdered = true ∧
    seen State.phase (step (State.reset.placing ⟨0x62000105#32, 0x00001234#32, 1#32, packOpr []⟩)) = some .wr ∧
    (∀ p ∈ [Phase.wr, .st, .rd], (reading 0x62000105#32 p [.err]).traceOrdered = true) ∧
    seen State.phase (step (reading 0x62000105#32 .wr [bytesAnswer []])) = some .st ∧
    seen State.phase (step (reading 0x62000105#32 .st [])) = some .rd ∧
    seen State.phase (step (reading 0x62000105#32 .rd [bytesAnswer [0x00#8, 0x00#8, 0x81#8]])) = some .done := by
  refine ⟨?_, ?_, ?_, ?_, ?_, ?_⟩ <;> decide +kernel
theorem witness_DiagnosticsAndZeroDelaysAreNotObserved : (1#32 : Word32) ≠ 0#32 := by decide
theorem witness_Crc8StepIsLinear : identityBlock.length = corruptBlock.length := by decide
theorem witness_TraceOnlyGrows :
    (∃ t, exec .softReset State.reset = .next t) ∧
    seen State.trace (exec (.read 0x62#8 0x1234#16 1#3 1#32) (reading 0x62000105#32 .rd [.err])) =
      some [.write 0x62#8 [0x12#8, 0x34#8] .ok, .delay 1#32, .read 0x62#8 3 .err, .log .readFailed] :=
  ⟨⟨_, rfl⟩, by decide +kernel⟩
/-- Each register changed by its one writer. -/
theorem witness_ResultRegistersHaveOneWriter :
    seen (fun t => decide (t.crcOut ≠ State.reset.crcOut)) (exec (.crc8 []) State.reset) = some true ∧
    seen (fun t => decide (t.enc ≠ State.reset.enc)) (exec (.wordEnc 0#16) State.reset) = some true ∧
    seen (fun t => decide (t.txb ≠ State.reset.txb ∧ t.phase = .wr))
      (exec (.writeByte false 0x62#8 0x77#8 5#32) State.reset) = some true ∧
    seen (fun t => decide (t.rxb ≠ [] ∧ t.rxw = [0x0000#16] ∧ t.vRxw = true ∧ t.code = 0#2))
      (exec (.read 0x62#8 0x1234#16 1#3 1#32) (reading 0x62000105#32 .rd [bytesAnswer [0x00#8, 0x00#8, 0x81#8]])) =
      some true := by
  refine ⟨?_, ?_, ?_, ?_⟩ <;> decide +kernel
theorem witness_MeaningsLeavePortsAndLatchAlone :
    State.reset.phase ≠ .wr ∧ State.reset.phase ≠ .rd ∧ ∃ t, exec (.startCont 0x62#8) State.reset = .next t :=
  ⟨by decide, by decide, _, rfl⟩
theorem witness_BusyStatusPortShowsNoResult :
    (reading 0x62000605#32 .st []).Inv ∧ (reading 0x62000605#32 .st []).phase.ready = false ∧
    (reading 0x62000605#32 .st []).hostNext = [] :=
  ⟨witness_busy_meets_Inv .st rfl [] 6#3 _ (.inr ⟨rfl, rfl⟩), rfl, rfl⟩
theorem witness_RequestsInProgressReachDone :
    (reading 0x62000105#32 .wr []).Inv ∧ (reading 0x62000105#32 .wr []).phase.ready = false ∧
    (reading 0x62000105#32 .wr []).hostNext = [] :=
  ⟨witness_busy_meets_Inv .wr rfl [] 1#3 _ (.inl ⟨rfl, rfl⟩), rfl, rfl⟩
/-- A read that fails (CODE 1) and one with a bad word (CODE 2). -/
theorem witness_ErrorsExposeNoResult :
    (reading 0x62000105#32 .rd [.err]).Inv ∧
    seen (fun t => (t.phase, t.code)) (step (reading 0x62000105#32 .rd [.err])) = some (.done, 1#2) ∧
    seen (fun t => (t.phase, t.code)) (step (reading 0x62000605#32 .rd [bytesAnswer corruptBlock])) =
      some (.done, 2#2) :=
  ⟨witness_busy_meets_Inv .rd rfl _ 1#3 _ (.inl ⟨rfl, rfl⟩), by decide +kernel, by decide +kernel⟩

end Sys2Proof.Tests
end

/-! PROOFS of the family 00_scope: what a meaning adds to TRACE, and what it leaves to the host, the port and the oracle. -/

namespace Sys2Proof.Machine

variable {s t : State}

/-- What holds of the old state and of the body's result at acceptance holds after a pure kind's step (R82). -/
theorem generator_induction {P : State → Prop} {body : State → State} (same : P s) (accepted : P (body s.clearValidity)) :
    P (generator body s) := by
  cases h : s.phase.ready with
  | true => rwa [generator_ready h]
  | false => rwa [generator_busy h]

/-! ### What a meaning adds to TRACE (R7, R44, R117) -/

/-- The ways TRACE grows from `s` to `t`: by no event, by one W, D or R event, by the diagnostic of a failed ending, or by
an event and then the diagnostic. -/
inductive GrowsTrace (s t : State) : Prop where
  | nothing (trace : t.trace = s.trace)
  | bus (e : Event) (isBus : e.isBus = true) (trace : t.trace = s.trace ++ [e])
  | log (reason : Reason) (ended : t.phase = .done) (trace : t.trace = s.trace ++ [.log reason])
  | busThenLog (e : Event) (reason : Reason) (isBus : e.isBus = true) (ended : t.phase = .done)
      (trace : t.trace = s.trace ++ [e, .log reason])

@[simp] theorem Event.isBus_log (reason : Reason) : (Event.log reason).isBus = false := rfl

theorem framer_growsTrace (addr : Byte) (be : Bool) (frame : Option (List Byte)) (words : List Word) (settle : Word32)
    (response : Option (BitVec 3)) (s : State) :
    GrowsTrace s (framer addr be frame words settle response s) := by
  rcases framer_cases addr be frame words settle response s with
    ⟨_, _, tooLarge⟩ | ⟨_, f, _, launched⟩ | ⟨_, _, written⟩ | ⟨_, _, _, writeFailed⟩ | ⟨_, _, settled⟩ |
    ⟨_, _, settledLast⟩ | ⟨_, _, unchanged⟩ | ⟨_, n, _, _, readFailed⟩ | ⟨_, n, b, values, _, _, _, good⟩ |
    ⟨_, n, b, k, _, _, _, bad⟩
  · rw [tooLarge]; exact .log .frameTooLarge rfl rfl
  · rw [launched]; exact .nothing rfl
  · rw [written]; exact .bus (.write addr s.txb s.answer.toWrite) rfl (by simp)
  · rw [writeFailed]; exact .busThenLog (.write addr s.txb .err) .writeFailed rfl rfl (by simp)
  · rw [settled]; exact .bus (.delay settle) rfl rfl
  · rw [settledLast]; exact .bus (.delay settle) rfl rfl
  · rw [unchanged]; exact .nothing rfl
  · rw [readFailed]; exact .busThenLog (.read addr (3 * n.toNat) .err) .readFailed rfl rfl (by simp)
  · rw [good]; exact .bus (.read addr (3 * n.toNat) (.ok (b.toList.take (3 * n.toNat)))) rfl (by simp)
  · rw [bad]
    exact .busThenLog (.read addr (3 * n.toNat) (.ok (b.toList.take (3 * n.toNat)))) .checksumMismatch rfl rfl (by simp)

theorem exec_growsTrace {i : Instr} (h : exec i s = .next t) : GrowsTrace s t := by
  rcases exec_cases i s with
    ⟨_, he⟩ | ⟨input, _, he⟩ | ⟨v, _, he⟩ | ⟨hi, lo, c, _, he⟩ | ⟨addr, be, frame, words, settle, response, he⟩ <;>
    rw [he] at h <;> cases h
  · exact generator_induction (.nothing rfl) (.nothing rfl)
  · exact generator_induction (.nothing rfl) (.nothing rfl)
  · refine generator_induction (.nothing rfl) ?_
    split
    · exact .nothing rfl
    · exact .log .checksumMismatch rfl rfl
  · exact framer_growsTrace ..

/-- Settles O44: each way TRACE grows keeps the bounds. -/
theorem traceOnlyGrows : Obligations.TraceOnlyGrows := by
  intro i s t h
  cases exec_growsTrace h with
  | nothing trace => exact ⟨[], by simp [trace], by simp, by simp, by simp⟩
  | bus e isBus trace => exact ⟨[e], trace, by simp [isBus], by simp [isBus], by simp [isBus]⟩
  | log reason ended trace => exact ⟨[.log reason], trace, by simp, by simp, fun _ => ended⟩
  | busThenLog e reason isBus ended trace =>
    exact ⟨[e, .log reason], trace, by simp [isBus], by simp [isBus], fun _ => ended⟩

/-! ### What a meaning leaves alone (R13, R17, R28, R29) -/

/-- From `s` to `t` the latch, the request port and the host's script stand, and so do the oracle's two fields unless `s` is
in a phase that calls the bus. -/
structure KeepsEnvironment (s t : State) : Prop where
  req : t.req = s.req
  port : t.port = s.port
  hostNext : t.hostNext = s.hostNext
  oracle : s.phase ≠ .wr → s.phase ≠ .rd → t.answers = s.answers ∧ t.draws = s.draws

/-- An operation without a bus call. -/
theorem KeepsEnvironment.of_oracle_eq (req : t.req = s.req) (port : t.port = s.port) (hostNext : t.hostNext = s.hostNext)
    (answers : t.answers = s.answers) (draws : t.draws = s.draws) : KeepsEnvironment s t :=
  ⟨req, port, hostNext, fun _ _ => ⟨answers, draws⟩⟩

/-- A bus call of WR or RD: of these fields it moves the oracle's alone. -/
theorem KeepsEnvironment.of_busCall (calls : s.phase = .wr ∨ s.phase = .rd) (req : t.req = s.drawn.req)
    (port : t.port = s.drawn.port) (hostNext : t.hostNext = s.drawn.hostNext) : KeepsEnvironment s t :=
  ⟨by rw [req, s.drawn_req], by rw [port, s.drawn_port], by rw [hostNext, s.drawn_hostNext],
    fun hwr hrd => (calls.elim hwr hrd).elim⟩

theorem framer_keepsEnvironment (addr : Byte) (be : Bool) (frame : Option (List Byte)) (words : List Word)
    (settle : Word32) (response : Option (BitVec 3)) (s : State) :
    KeepsEnvironment s (framer addr be frame words settle response s) := by
  rcases framer_cases addr be frame words settle response s with
    ⟨_, _, tooLarge⟩ | ⟨_, f, _, launched⟩ | ⟨hp, _, written⟩ | ⟨hp, _, _, writeFailed⟩ | ⟨_, _, settled⟩ |
    ⟨_, _, settledLast⟩ | ⟨_, _, unchanged⟩ | ⟨hp, n, _, _, readFailed⟩ | ⟨hp, n, b, values, _, _, _, good⟩ |
    ⟨hp, n, b, k, _, _, _, bad⟩
  · rw [tooLarge]; exact .of_oracle_eq rfl rfl rfl rfl rfl
  · rw [launched]; exact .of_oracle_eq rfl rfl rfl rfl rfl
  · rw [written]; exact .of_busCall (.inl hp) rfl rfl rfl
  · rw [writeFailed]; exact .of_busCall (.inl hp) rfl rfl rfl
  · rw [settled]; exact .of_oracle_eq rfl rfl rfl rfl rfl
  · rw [settledLast]; exact .of_oracle_eq rfl rfl rfl rfl rfl
  · rw [unchanged]; exact .of_oracle_eq rfl rfl rfl rfl rfl
  · rw [readFailed]; exact .of_busCall (.inr hp) rfl rfl rfl
  · rw [good]; exact .of_busCall (.inr hp) rfl rfl rfl
  · rw [bad]; exact .of_busCall (.inr hp) rfl rfl rfl

theorem exec_keepsEnvironment {i : Instr} (h : exec i s = .next t) : KeepsEnvironment s t := by
  have same : KeepsEnvironment s s := .of_oracle_eq rfl rfl rfl rfl rfl
  rcases exec_cases i s with
    ⟨_, he⟩ | ⟨input, _, he⟩ | ⟨v, _, he⟩ | ⟨hi, lo, c, _, he⟩ | ⟨addr, be, frame, words, settle, response, he⟩ <;>
    rw [he] at h <;> cases h
  · exact generator_induction same (.of_oracle_eq rfl rfl rfl rfl rfl)
  · exact generator_induction same (.of_oracle_eq rfl rfl rfl rfl rfl)
  · refine generator_induction same ?_
    split <;> exact .of_oracle_eq rfl rfl rfl rfl rfl
  · exact framer_keepsEnvironment ..

/-- Settles O48. -/
theorem meaningsLeavePortsAndLatchAlone : Obligations.MeaningsLeavePortsAndLatchAlone := by
  intro i s t h
  obtain ⟨req, port, hostNext, oracle⟩ := exec_keepsEnvironment h
  exact ⟨req, port, hostNext, oracle⟩

end Sys2Proof.Machine

/-! PROOFS of the family 10_state: the invariant and the order of events that every step keeps, what stops the machine, what
no meaning reads, who writes each result register, and what the host reads. -/

namespace Sys2Proof.Machine

open Sys2Proof.Claims

variable {s t : State} {i : Instr}

/-! ### The meanings by kind: three bodies of pure kinds, and one course of a framer request -/

/-- CRC8 after the validity bits are cleared (R78). -/
def crc8Body (input : List Byte) (s : State) : State :=
  endOk { s with acc := crc8 input, crcOut := crc8 input, vCrcOut := true }

/-- WORD_ENC after the validity bits are cleared (R79). -/
def wordEncBody (v : Word) (s : State) : State :=
  endOk { s with acc := crcWord v, enc := #v[v.extractLsb' 8 8, v.extractLsb' 0 8, crcWord v], vEnc := true }

/-- WORD_CHK after the validity bits are cleared (R80). -/
def wordChkBody (hi lo crc : Byte) (s : State) : State :=
  if crcWord (wordOf hi lo) = crc then endOk { s with acc := crcWord (wordOf hi lo) }
  else endErr .checksumError 0 .checksumMismatch { s with acc := crcWord (wordOf hi lo) }

theorem exec_crc8 (input : List Byte) (s : State) : exec (.crc8 input) s = .next (generator (crc8Body input) s) := rfl

theorem exec_wordEnc (v : Word) (s : State) : exec (.wordEnc v) s = .next (generator (wordEncBody v) s) := rfl

theorem exec_wordChk (hi lo crc : Byte) (s : State) :
    exec (.wordChk hi lo crc) s = .next (generator (wordChkBody hi lo crc) s) := rfl

/-- The two endings of WORD_CHK (R80). -/
theorem wordChkBody_cases (hi lo crc : Byte) (s : State) :
    wordChkBody hi lo crc s = endOk { s with acc := crcWord (wordOf hi lo) } ∨
    wordChkBody hi lo crc s = endErr .checksumError 0 .checksumMismatch { s with acc := crcWord (wordOf hi lo) } := by
  unfold wordChkBody
  split
  · exact .inl rfl
  · exact .inr rfl

/-- What `framer` is applied to for one request (R89 to R92). -/
structure FramerCourse where
  addr : Byte
  be : Bool
  frame : Option (List Byte)
  words : List Word
  settle : Word32
  response : Option (BitVec 3)

/-- One step of the course. -/
def FramerCourse.step (c : FramerCourse) : State → State := framer c.addr c.be c.frame c.words c.settle c.response

/-- The course of a request of one of the framer's four kinds. -/
def courseOf : Instr → Option FramerCourse
  | .write addr opcode words settle =>
    some ⟨addr, false, boundedFrame words.length 0 (guardedFrame opcode words), words, settle, none⟩
  | .writeRead addr opcode words rxn settle =>
    some ⟨addr, false, boundedFrame words.length rxn.toNat (guardedFrame opcode words), words, settle, some rxn⟩
  | .read addr opcode rxn settle =>
    some ⟨addr, false, boundedFrame 0 rxn.toNat (guardedFrame opcode []), [], settle, some rxn⟩
  | .writeByte be addr byte settle => some ⟨addr, be, some [byte], [], settle, none⟩
  | _ => none

/-- An instruction is one of the three pure kinds, the reserved kind, or expands to a framer request. -/
theorem instr_kinds (i : Instr) :
    i = .reservedKind7 ∨ (∃ input, i = .crc8 input) ∨ (∃ v, i = .wordEnc v) ∨ (∃ hi lo crc, i = .wordChk hi lo crc) ∨
    ∃ c, courseOf i.expand = some c := by
  cases i
  case reservedKind7 => exact .inl rfl
  case crc8 input => exact .inr (.inl ⟨input, rfl⟩)
  case wordEnc v => exact .inr (.inr (.inl ⟨v, rfl⟩))
  case wordChk hi lo crc => exact .inr (.inr (.inr (.inl ⟨hi, lo, crc, rfl⟩)))
  all_goals exact .inr (.inr (.inr (.inr ⟨_, rfl⟩)))

/-- A request that expands to a framer request runs that request's course (R71, R98). -/
theorem exec_of_course {c : FramerCourse} (hc : courseOf i.expand = some c) (s : State) : exec i s = .next (c.step s) := by
  cases i
  case reservedKind7 => cases hc
  case crc8 => cases hc
  case wordEnc => cases hc
  case wordChk => cases hc
  all_goals cases hc; rfl

/-- Every way a meaning answers a next state. -/
theorem exec_next_cases (h : exec i s = .next t) :
    (∃ input, i = .crc8 input ∧ t = generator (crc8Body input) s) ∨
    (∃ v, i = .wordEnc v ∧ t = generator (wordEncBody v) s) ∨
    (∃ hi lo crc, i = .wordChk hi lo crc ∧ t = generator (wordChkBody hi lo crc) s) ∨
    (∃ c, courseOf i.expand = some c ∧ t = c.step s) := by
  rcases instr_kinds i with rfl | ⟨input, rfl⟩ | ⟨v, rfl⟩ | ⟨hi, lo, crc, rfl⟩ | ⟨c, hc⟩
  · cases h
  · cases h; exact .inl ⟨input, rfl, rfl⟩
  · cases h; exact .inr (.inl ⟨v, rfl, rfl⟩)
  · cases h; exact .inr (.inr (.inl ⟨hi, lo, crc, rfl, rfl⟩))
  · rw [exec_of_course hc] at h; cases h
    exact .inr (.inr (.inr ⟨c, hc, rfl⟩))

/-- Only the reserved kind has no next state. -/
theorem exec_answers (hi : i ≠ .reservedKind7) (s : State) : ∃ t, exec i s = .next t := by
  rcases instr_kinds i with rfl | ⟨input, rfl⟩ | ⟨v, rfl⟩ | ⟨hi, lo, crc, rfl⟩ | ⟨c, hc⟩
  · exact (hi rfl).elim
  · exact ⟨_, rfl⟩
  · exact ⟨_, rfl⟩
  · exact ⟨_, rfl⟩
  · exact ⟨_, exec_of_course hc s⟩

/-- The decoder answers no catalog command (R72; log 8). -/
theorem decode_expand {r : Request} (h : decode r = .ok i) : i.expand = i := by
  rcases decode_cases h with ⟨_, rfl⟩ | ⟨_, _, rfl⟩ | ⟨_, rfl⟩ | ⟨_, rfl⟩ | ⟨_, rfl⟩ | ⟨_, _, rfl⟩ | ⟨_, _, rfl⟩ | ⟨_, rfl⟩ <;>
    rfl

theorem isFramer_of_course {c : FramerCourse} (hc : courseOf i = some c) : isFramer i = true := by
  cases i
  case write => rfl
  case writeRead => rfl
  case read => rfl
  case writeByte => rfl
  all_goals cases hc

/-- A course with a response is that of a reading kind. -/
theorem reads_of_course {c : FramerCourse} {n : BitVec 3} (hc : courseOf i = some c) (hn : c.response = some n) :
    (∃ a o n ms, i = .read a o n ms) ∨ (∃ a o ws n ms, i = .writeRead a o ws n ms) := by
  cases i
  case read a o n ms => exact .inl ⟨a, o, n, ms, rfl⟩
  case writeRead a o ws n ms => exact .inr ⟨a, o, ws, n, ms, rfl⟩
  case write => cases hc; cases hn
  case writeByte => cases hc; cases hn
  all_goals cases hc

/-! ### The frame limits (R83) -/

theorem boundedFrame_eq_some {txn rxn : Nat} {frame f : List Byte} :
    boundedFrame txn rxn frame = some f ↔ (2 + 3 * txn ≤ 16 ∧ 3 * rxn ≤ 18) ∧ frame = f := by
  simp [boundedFrame, limitError]

theorem guardedFrame_length (opcode : Word) (words : List Word) :
    (guardedFrame opcode words).length = 2 + 3 * words.length := by
  induction words with
  | nil => rfl
  | cons v rest ih => simp [guardedFrame, wordFrame, be16] at ih ⊢; omega

/-- A request that passed the size check has a frame for TXB and a response for RXB (R18, R19). -/
theorem course_within_limits {c : FramerCourse} {f : List Byte} (hc : courseOf i = some c) (hf : c.frame = some f) :
    f.length ≤ 16 ∧ ∀ n, c.response = some n → 3 * n.toNat ≤ 18 := by
  cases i
  case write addr opcode words settle =>
    cases hc
    obtain ⟨⟨tx, _⟩, rfl⟩ := boundedFrame_eq_some.1 hf
    exact ⟨by rwa [guardedFrame_length], fun n hn => by cases hn⟩
  case writeRead addr opcode words rxn settle =>
    cases hc
    obtain ⟨⟨tx, rx⟩, rfl⟩ := boundedFrame_eq_some.1 hf
    exact ⟨by rwa [guardedFrame_length], fun n hn => by cases hn; exact rx⟩
  case read addr opcode rxn settle =>
    cases hc
    obtain ⟨⟨tx, rx⟩, rfl⟩ := boundedFrame_eq_some.1 hf
    exact ⟨by rwa [guardedFrame_length], fun n hn => by cases hn; exact rx⟩
  case writeByte be addr byte settle =>
    cases hc; cases hf
    exact ⟨by simp, fun n hn => by cases hn⟩
  all_goals cases hc

/-! ### The status byte's fields (R21, R116) -/

theorem statusByte_code (code : StatusCode) (idx : Nat) : (statusByte code idx).extractLsb' 0 2 = code.bits := by
  ext j hj
  simp only [statusByte, BitVec.getElem_extractLsb', BitVec.getLsbD_append]
  simp [show j < 2 by omega]

theorem statusByte_errIdx (code : StatusCode) (idx : Nat) :
    (statusByte code idx).extractLsb' 2 3 = BitVec.ofNat 3 idx := by
  ext j hj
  simp only [statusByte, BitVec.getElem_extractLsb', BitVec.getLsbD_append]
  simp [show ¬ 2 + j < 2 by omega, show 2 + j - 2 = j by omega, hj]

theorem statusByte_reserved (code : StatusCode) (idx : Nat) : (statusByte code idx).extractLsb' 5 3 = 0#3 := by
  ext j hj
  simp only [statusByte, BitVec.getElem_extractLsb', BitVec.getLsbD_append]
  simp [show ¬ 5 + j < 2 by omega, show ¬ 5 + j - 2 < 3 by omega]

theorem statusByte_ok : statusByte .ok 0 = 0x00#8 := rfl

/-- A status byte is legal if its index is at most 5, and 0 unless the code is CHECKSUM_ERROR. -/
theorem statusLegal_of_statusByte {code : StatusCode} {idx : Nat} (status : s.status = statusByte code idx)
    (le : idx ≤ 5) (zero : code ≠ .checksumError → idx = 0) : s.statusLegal := by
  simp only [State.statusLegal, State.statusReserved, State.code, State.errIdx, status, statusByte_code,
    statusByte_errIdx, statusByte_reserved]
  refine ⟨trivial, by cases code <;> decide, ?_, ?_⟩
  · rw [BitVec.toNat_ofNat]; omega
  · intro h
    rw [zero (by rintro rfl; exact h rfl)]

/-! ### The invariant's parts by course -/

/-- A busy block's REQ and TXB by the course of its request. -/
theorem progressFits_iff (busy : s.phase.ready = false) :
    s.progressFits ↔ ∃ i c, decode s.req = .ok i ∧ courseOf i = some c ∧ c.frame = some s.txb ∧
      (s.phase = .rd → c.response ≠ none) := by
  unfold State.progressFits
  cases hd : decode s.req with
  | error e => simp [busy]
  | ok i =>
    cases i
    case write => simp [busy, courseOf, and_comm]
    case writeRead => simp [busy, courseOf]
    case read => simp [busy, courseOf]
    case writeByte => simp [busy, courseOf, and_comm, eq_comm (a := s.txb)]
    all_goals simp [busy, courseOf]

theorem progressFits_of_ready (ready : s.phase.ready = true) : s.progressFits := by
  intro busy
  simp [ready] at busy

theorem resultsBelong_of_noResult (h : s.noResult) : s.resultsBelong := by
  obtain ⟨crcOut, enc, rxw⟩ := h
  unfold State.resultsBelong
  split <;> simp [crcOut, enc, rxw, State.noResult]

/-- Exposed words belong to a reading request (R24, R25). -/
theorem resultsBelong_of_exposes {c : FramerCourse} {n : BitVec 3} (hd : decode s.req = .ok i) (hc : courseOf i = some c)
    (hn : c.response = some n) (crcOut : s.vCrcOut = false) (enc : s.vEnc = false) (exposes : s.exposesResponse n) :
    s.resultsBelong := by
  unfold State.resultsBelong
  rw [hd]
  cases i
  case writeRead => cases hc; cases hn; exact ⟨crcOut, enc, fun _ => exposes⟩
  case read => cases hc; cases hn; exact ⟨crcOut, enc, fun _ => exposes⟩
  case write => cases hc; cases hn
  case writeByte => cases hc; cases hn
  all_goals cases hc

/-- A busy state's part of the invariant (R34): nothing is exposed. -/
theorem inv_of_busy (status : s.statusLegal) (buffers : s.buffersFit) (busy : s.phase.ready = false)
    (hidden : s.vStatus = false) (noResult : s.noResult) (progress : s.progressFits) : s.Inv := by
  refine ⟨status, buffers, ?_, progress, resultsBelong_of_noResult noResult⟩
  unfold State.validityFits
  cases hp : s.phase with
  | idle => simp [hp, Phase.ready] at busy
  | done => simp [hp, Phase.ready] at busy
  | wr => exact ⟨hidden, noResult⟩
  | st => exact ⟨hidden, noResult⟩
  | rd => exact ⟨hidden, noResult⟩

theorem busy_exposes_nothing (inv : s.Inv) (busy : s.phase.ready = false) : s.vStatus = false ∧ s.noResult := by
  obtain ⟨_, _, validity, _, _⟩ := inv
  unfold State.validityFits at validity
  cases hp : s.phase with
  | idle => simp [hp, Phase.ready] at busy
  | done => simp [hp, Phase.ready] at busy
  | wr => simpa [hp] using validity
  | st => simpa [hp] using validity
  | rd => simpa [hp] using validity

/-- `end_ok` may expose what belongs to the request (R117). -/
theorem inv_endOk (buffers : s.buffersFit) (results : s.resultsBelong) : (endOk s).Inv :=
  ⟨statusLegal_of_statusByte (code := .ok) rfl (by decide) (fun _ => rfl), buffers, ⟨rfl, .inr statusByte_ok⟩,
    progressFits_of_ready rfl, results⟩

/-- `end_err` exposes nothing (R122). -/
theorem inv_endErr {code : StatusCode} {idx : Nat} (reason : Reason) (le : idx ≤ 5)
    (zero : code ≠ .checksumError → idx = 0) (buffers : s.buffersFit) (noResult : s.noResult) :
    (endErr code idx reason s).Inv :=
  ⟨statusLegal_of_statusByte (code := code) rfl le zero, buffers, ⟨rfl, .inl noResult⟩, progressFits_of_ready rfl,
    resultsBelong_of_noResult noResult⟩

/-! ### Every step keeps the invariant -/

/-- An acceptance needs little of the state it finds (R82): it writes what the invariant speaks of, or keeps it. -/
theorem accept_keeps_inv (ready : s.phase.ready = true) (status : s.statusLegal) (buffers : s.buffersFit)
    (hd : decode s.req = .ok i) (h : exec i s = .next t) : t.Inv := by
  rcases exec_next_cases h with ⟨input, rfl, rfl⟩ | ⟨v, rfl, rfl⟩ | ⟨hi, lo, crc, rfl, rfl⟩ | ⟨c, hc, rfl⟩
  · rw [generator_ready ready]
    refine inv_endOk buffers ?_
    unfold State.resultsBelong
    simp [hd]
  · rw [generator_ready ready]
    refine inv_endOk buffers ?_
    unfold State.resultsBelong
    simp [hd, wordFrame, be16]
  · rw [generator_ready ready]
    rcases wordChkBody_cases hi lo crc s.clearValidity with ok | bad
    · rw [ok]; exact inv_endOk buffers (resultsBelong_of_noResult ⟨rfl, rfl, rfl⟩)
    · rw [bad]; exact inv_endErr _ (by decide) (fun _ => rfl) buffers ⟨rfl, rfl, rfl⟩
  · rw [decode_expand hd] at hc
    rw [FramerCourse.step, framer_ready ready]
    cases hf : c.frame with
    | none => exact inv_endErr _ (by decide) (fun _ => rfl) buffers ⟨rfl, rfl, rfl⟩
    | some f =>
      obtain ⟨_, rxl, rxwn⟩ := buffers
      exact inv_of_busy status ⟨(course_within_limits hc hf).1, rxl, rxwn⟩ rfl rfl ⟨rfl, rfl, rfl⟩
        ((progressFits_iff rfl).2 ⟨i, c, hd, hc, hf, fun rd => by cases rd⟩)

/-- The words of a response with no bad word are as many as were asked for (R87, R88). -/
theorem checked_length {bytes : List Byte} {values : List Word} {n : Nat} (length : bytes.length = 3 * n)
    (good : checkWords bytes = .ok values) : values.length = n := by
  rw [(checkWords_ok_iff.1 good).2, List.length_map, responseWords_length length]

/-- The bytes of a BusRead (R12). -/
theorem response_length (b : Vector Byte 18) {n : Nat} (h : 3 * n ≤ 18) : (b.toList.take (3 * n)).length = 3 * n := by
  simp; omega

/-- A step of the request in progress (R85 to R88). -/
theorem progress_keeps_inv (inv : s.Inv) (busy : s.phase.ready = false) (hd : decode s.req = .ok i)
    (h : exec i s = .next t) : t.Inv := by
  obtain ⟨hidden, noResult⟩ := busy_exposes_nothing inv busy
  obtain ⟨status, buffers, _, progress, _⟩ := inv
  obtain ⟨j, c, hj, hc, hf, reads⟩ := (progressFits_iff busy).1 progress
  obtain rfl : i = j := by rw [hd] at hj; exact Except.ok.inj hj
  rw [exec_of_course (by rwa [decode_expand hd])] at h
  cases h
  obtain ⟨_, rxLimit⟩ := course_within_limits hc hf
  obtain ⟨answers, draws, drawn⟩ : ∃ answers draws, s.drawn = { s with answers := answers, draws := draws } :=
    ⟨_, _, s.drawn_eq⟩
  rw [FramerCourse.step]
  rcases framer_cases c.addr c.be c.frame c.words c.settle c.response s with
    ⟨ready, _, _⟩ | ⟨ready, _⟩ | ⟨_, _, written⟩ | ⟨_, _, _, writeFailed⟩ | ⟨_, responds, settled⟩ |
    ⟨_, _, settledLast⟩ | ⟨rd, none, _⟩ | ⟨_, n, _, _, readFailed⟩ | ⟨_, n, b, values, hn, _, ok, good⟩ |
    ⟨_, n, b, k, hn, _, err, bad⟩
  · simp [ready] at busy
  · simp [ready] at busy
  · rw [written, drawn]
    exact inv_of_busy status buffers rfl hidden noResult ((progressFits_iff rfl).2 ⟨i, c, hd, hc, hf, nofun⟩)
  · rw [writeFailed, drawn]
    exact inv_endErr _ (by decide) (fun _ => rfl) buffers noResult
  · rw [settled]
    exact inv_of_busy status buffers rfl hidden noResult ((progressFits_iff rfl).2 ⟨i, c, hd, hc, hf, fun _ => responds⟩)
  · rw [settledLast]
    exact inv_endOk buffers (resultsBelong_of_noResult noResult)
  · exact (reads rd none).elim
  · rw [readFailed, drawn]
    exact inv_endErr _ (by decide) (fun _ => rfl) buffers noResult
  · have limit := rxLimit n hn
    have length := response_length b limit
    have count := checked_length length ok
    have sixWords : values.length ≤ 6 := by omega
    obtain ⟨txl, _, _⟩ := buffers
    obtain ⟨crcOut, enc, _⟩ := noResult
    rw [good, drawn]
    exact inv_endOk ⟨txl, length.trans_le limit, sixWords⟩
      (resultsBelong_of_exposes hd hc hn crcOut enc ⟨length, count, ok⟩)
  · have limit := rxLimit n hn
    have length := response_length b limit
    have index := checkWords_error_lt err
    rw [responseWords_length length] at index
    obtain ⟨txl, _, rxwn⟩ := buffers
    rw [bad, drawn]
    exact inv_endErr _ (by omega) (fun h => (h rfl).elim) ⟨txl, length.trans_le limit, rxwn⟩ noResult

/-- The invariant does not see the host's turn (R29, R43). -/
theorem hostTurn_keeps_inv {taken : Bool} (h : hostTurn taken s = .next t) (inv : s.Inv) : t.Inv := by
  rw [hostTurn_keeps_block h]
  exact (State.inv_environment t.port t.hostNext s.answers t.draws).2 inv

/-- Settles O42: an acceptance, a step of the request in progress and the wait keep the invariant, and so does the host's
turn after each. -/
theorem stepKeepsInvariant : Obligations.StepKeepsInvariant := by
  intro s t inv h
  rcases step_cases h with ⟨ready, _, i, u, hd, hu, ht⟩ | ⟨busy, i, u, hd, hu, ht⟩ | ⟨_, _, ht⟩
  · obtain ⟨status, buffers, _, _, _⟩ := inv
    exact hostTurn_keeps_inv ht (accept_keeps_inv (s := s.latch) ready status buffers hd hu)
  · exact hostTurn_keeps_inv ht (progress_keeps_inv inv busy hd hu)
  · exact hostTurn_keeps_inv ht inv

/-- Settles O51: the invariant of DONE exposes a result only beside STATUS 0. -/
theorem errorsExposeNoResult : Obligations.ErrorsExposeNoResult := by
  intro s t inv h done error
  obtain ⟨_, _, validity, _, _⟩ := stepKeepsInvariant s t inv h
  unfold State.validityFits at validity
  rw [done] at validity
  obtain ⟨_, noResult | status⟩ := validity
  · exact noResult
  · exact (error (by rw [State.code, status]; rfl)).elim

/-- Settles O41: no result is valid, so it does not matter what the zeros in REQ decode to (log 1). -/
theorem invariantHoldsAtReset : Obligations.InvariantHoldsAtReset :=
  ⟨statusLegal_of_statusByte (code := .ok) rfl (by decide) (fun _ => rfl), ⟨Nat.zero_le _, Nat.zero_le _, Nat.zero_le _⟩,
    ⟨rfl, ⟨rfl, rfl, rfl⟩, rfl⟩, progressFits_of_ready rfl, resultsBelong_of_noResult ⟨rfl, rfl, rfl⟩⟩

/-! ### Every step keeps the order of events (R45, R46) -/

theorem traceOrdered_iff :
    s.traceOrdered = true ↔ ∃ p, tracePoint s.trace = some p ∧ p.fits s.phase = true := by
  unfold State.traceOrdered
  cases tracePoint s.trace <;> simp

/-- The events a step appends take the old point of TRACE to one that fits the new phase. -/
theorem traceOrdered_of_append {p q : TracePoint} {events : List Event} (at_ : tracePoint s.trace = some p)
    (trace : t.trace = s.trace ++ events) (moves : events.foldlM TracePoint.next p = some q)
    (fits : q.fits t.phase = true) : t.traceOrdered = true := by
  refine traceOrdered_iff.2 ⟨q, ?_, fits⟩
  unfold tracePoint at at_ ⊢
  rw [trace, List.foldlM_append, at_]
  exact moves

theorem TracePoint.over_of_fits {p : TracePoint} {phase : Phase} (fits : p.fits phase = true)
    (h : phase.ready = true ∨ phase = .wr) : p.over = true := by
  rcases h with h | rfl
  · rcases Phase.ready_iff.1 h with rfl | rfl <;> exact fits
  · exact fits

/-- A pure kind makes no event but ChecksumMismatch, which may stand alone. -/
theorem generator_keeps_order {body : State → State} (done : ∀ t, (body t).phase = .done)
    (events : ∀ t, (body t).trace = t.trace ∨ (body t).trace = t.trace ++ [.log .checksumMismatch])
    (ordered : s.traceOrdered = true) : (generator body s).traceOrdered = true := by
  cases ready : s.phase.ready with
  | false => rwa [generator_busy ready]
  | true =>
    obtain ⟨p, at_, fits⟩ := traceOrdered_iff.1 ordered
    have isOver := p.over_of_fits fits (.inl ready)
    rw [generator_ready ready]
    rcases events s.clearValidity with same | logged
    · exact traceOrdered_of_append at_ (events := []) (by simpa using same) rfl (by rw [done]; exact isOver)
    · exact traceOrdered_of_append (q := .closed) at_ logged (by simp [TracePoint.next, isOver]) (by rw [done]; rfl)

/-- Each phase's point of TRACE admits the phase's events, and they lead to the point of the next phase. -/
theorem framer_keeps_order (addr : Byte) (be : Bool) (frame : Option (List Byte)) (words : List Word) (settle : Word32)
    (response : Option (BitVec 3)) (ordered : s.traceOrdered = true) :
    (framer addr be frame words settle response s).traceOrdered = true := by
  obtain ⟨p, at_, fits⟩ := traceOrdered_iff.1 ordered
  rcases framer_cases addr be frame words settle response s with
    ⟨ready, _, tooLarge⟩ | ⟨ready, f, _, launched⟩ | ⟨wr, _, written⟩ | ⟨wr, _, _, writeFailed⟩ | ⟨st, _, settled⟩ |
    ⟨st, _, settledLast⟩ | ⟨_, _, unchanged⟩ | ⟨rd, n, _, _, readFailed⟩ | ⟨rd, n, b, values, _, _, _, good⟩ |
    ⟨rd, n, b, k, _, _, _, bad⟩
  · have isOver := p.over_of_fits fits (.inl ready)
    rw [tooLarge]
    exact traceOrdered_of_append (q := .closed) at_ rfl (by simp [TracePoint.next, isOver]) rfl
  · have isOver := p.over_of_fits fits (.inl ready)
    rw [launched]
    exact traceOrdered_of_append (events := []) at_ (by simp) rfl isOver
  · have isOver := p.over_of_fits fits (.inr wr)
    rw [written]
    cases s.answer.toWrite with
    | ok => exact traceOrdered_of_append (q := .wroteOk) at_ (by simp; rfl) (by simp [TracePoint.next, isOver]) rfl
    | err => exact traceOrdered_of_append (q := .wroteErr) at_ (by simp; rfl) (by simp [TracePoint.next, isOver]) rfl
  · have isOver := p.over_of_fits fits (.inr wr)
    rw [writeFailed]
    exact traceOrdered_of_append (q := .closed) (events := [.write addr s.txb .err, .log .writeFailed]) at_ (by simp)
      (by simp [TracePoint.next, isOver]) rfl
  · have wrote : p = .wroteOk ∨ p = .wroteErr := by simpa [st, TracePoint.fits] using fits
    rw [settled]
    exact traceOrdered_of_append (q := .settled) at_ rfl (by simp [TracePoint.next, wrote]) rfl
  · have wrote : p = .wroteOk ∨ p = .wroteErr := by simpa [st, TracePoint.fits] using fits
    rw [settledLast]
    exact traceOrdered_of_append (q := .settled) at_ rfl (by simp [TracePoint.next, wrote]) rfl
  · rwa [unchanged]
  · obtain rfl : p = .settled := by simpa [rd, TracePoint.fits] using fits
    rw [readFailed]
    exact traceOrdered_of_append (events := [.read addr (3 * n.toNat) .err, .log .readFailed]) at_ (by simp) rfl rfl
  · obtain rfl : p = .settled := by simpa [rd, TracePoint.fits] using fits
    rw [good]
    exact traceOrdered_of_append (events := [.read addr (3 * n.toNat) (.ok (b.toList.take (3 * n.toNat)))]) at_
      (by simp) rfl rfl
  · obtain rfl : p = .settled := by simpa [rd, TracePoint.fits] using fits
    rw [bad]
    exact traceOrdered_of_append
      (events := [.read addr (3 * n.toNat) (.ok (b.toList.take (3 * n.toNat))), .log .checksumMismatch]) at_
      (by simp) rfl rfl

theorem exec_keeps_order (h : exec i s = .next t) (ordered : s.traceOrdered = true) : t.traceOrdered = true := by
  rcases exec_next_cases h with ⟨input, _, rfl⟩ | ⟨v, _, rfl⟩ | ⟨hi, lo, crc, _, rfl⟩ | ⟨c, _, rfl⟩
  · exact generator_keeps_order (fun _ => rfl) (fun _ => .inl rfl) ordered
  · exact generator_keeps_order (fun _ => rfl) (fun _ => .inl rfl) ordered
  · refine generator_keeps_order (fun u => ?_) (fun u => ?_) ordered <;>
      rcases wordChkBody_cases hi lo crc u with ok | bad
    · rw [ok]; rfl
    · rw [bad]; rfl
    · exact .inl (by rw [ok]; rfl)
    · exact .inr (by rw [bad]; rfl)
  · exact framer_keeps_order _ _ _ _ _ _ ordered

/-- TRACE and phase are the block's, so the host's turn keeps their order (R29). -/
theorem hostTurn_keeps_order {taken : Bool} (h : hostTurn taken s = .next t) (ordered : s.traceOrdered = true) :
    t.traceOrdered = true := by
  rw [hostTurn_keeps_block h]
  exact ordered

/-- Settles O43: the meanings keep the order, and latching and the host's turn touch neither TRACE nor phase. -/
theorem stepKeepsEventOrder : Obligations.StepKeepsEventOrder := by
  refine ⟨rfl, fun s t ordered h => ?_⟩
  rcases step_cases h with ⟨_, _, i, u, _, hu, ht⟩ | ⟨_, i, u, _, hu, ht⟩ | ⟨_, _, ht⟩
  · exact hostTurn_keeps_order ht (exec_keeps_order (s := s.latch) hu ordered)
  · exact hostTurn_keeps_order ht (exec_keeps_order hu ordered)
  · exact hostTurn_keeps_order ht ordered

/-! ### What each kind of step is, as an equation (R17, R30, R82) -/

theorem step_accepts (ready : s.phase.ready = true) (valid : s.port.valid = true) (hd : decode s.port.req = .ok i) :
    step s = thenHost true (exec i s.latch) := by
  simp [step, cycle, State.busy, ready, valid, acceptStep, hd]

theorem step_refuses {e : DecodeError} (ready : s.phase.ready = true) (valid : s.port.valid = true)
    (hd : decode s.port.req = .error e) : step s = .fault .illegalRequest := by
  simp [step, cycle, State.busy, ready, valid, acceptStep, hd]

theorem step_progresses (busy : s.phase.ready = false) (hd : decode s.req = .ok i) :
    step s = thenHost false (exec i s) := by
  simp [step, cycle, State.busy, busy, progressStep, hd]

theorem step_stuck {e : DecodeError} (busy : s.phase.ready = false) (hd : decode s.req = .error e) :
    step s = .fault .illegalRequest := by
  simp [step, cycle, State.busy, busy, progressStep, hd]

theorem step_waits (ready : s.phase.ready = true) (idle : s.port.valid = false) : step s = hostTurn false s := by
  simp [step, cycle, State.busy, ready, idle]

/-- With no script, the host's turn after a meaning is to withdraw the request, if the step took one. -/
theorem thenHost_exec {taken : Bool} (script : s.hostNext = []) :
    thenHost taken (exec i s) =
      match exec i s with
      | .next t => .next (if taken then t.withdraw else t)
      | .fault f => .fault f
      | .refused r => .refused r := by
  cases h : exec i s with
  | next t => exact hostTurn_nil (by rw [(exec_keepsEnvironment h).hostNext, script])
  | fault f => rfl
  | refused r => rfl

/-- Settles O9; a meaning keeps the script, so with none the host only withdraws. -/
theorem stepRunsThePresentedRequest : Obligations.StepRunsThePresentedRequest := by
  intro s i ready valid hd
  refine ⟨step_accepts ready valid hd, fun t script h => ?_⟩
  rw [step_accepts ready valid hd, thenHost_exec (s := s.latch) script, show exec i s.latch = .next t from h]
  rfl

/-- Settles O10; a meaning keeps the script, so with none the host does nothing. -/
theorem busyStepRunsTheLatchedRequest : Obligations.BusyStepRunsTheLatchedRequest := by
  intro s i busy hd
  refine ⟨step_progresses busy hd, fun script => ?_⟩
  rw [step_progresses busy hd, thenHost_exec script]
  cases exec i s <;> rfl

/-! ### No meaning reads the port or TRACE (R17, R26, R49) -/

/-- The state with another request port and another trace. -/
def State.seenWith (s : State) (port : Port) (trace : List Event) : State := { s with port := port, trace := trace }

/-- At `s` the operation reads neither the port nor TRACE: beside any others it makes the same change, and appends the same
events. -/
def Oblivious (op : State → State) (s : State) : Prop :=
  ∃ events, ∀ port trace, op (s.seenWith port trace) = (op s).seenWith port (trace ++ events)

/-- At `s` itself, an oblivious operation keeps the port and appends its events. -/
theorem port_and_trace_of_oblivious {op : State → State} {events : List Event}
    (same : ∀ port trace, op (s.seenWith port trace) = (op s).seenWith port (trace ++ events)) :
    (op s).port = s.port ∧ (op s).trace = s.trace ++ events := by
  have own : op s = (op s).seenWith s.port (s.trace ++ events) := same s.port s.trace
  exact ⟨by rw [own]; rfl, by rw [own]; rfl⟩

/-- An operation that appends no event. -/
theorem Oblivious.of_silent {op : State → State}
    (h : ∀ port trace, op (s.seenWith port trace) = (op s).seenWith port trace) : Oblivious op s :=
  ⟨[], fun port trace => by rw [h, List.append_nil]⟩

theorem Oblivious.comp {f g : State → State} (hg : Oblivious g (f s)) (hf : Oblivious f s) : Oblivious (g ∘ f) s := by
  obtain ⟨first, hf⟩ := hf
  obtain ⟨second, hg⟩ := hg
  exact ⟨first ++ second, fun port trace => by
    rw [Function.comp_apply, hf, hg, List.append_assoc, Function.comp_apply]⟩

/-- An operation that is an oblivious one at `s`, whatever its port and trace. -/
theorem Oblivious.congr {f g : State → State} (hf : Oblivious f s)
    (eq : ∀ port trace, g (s.seenWith port trace) = f (s.seenWith port trace)) : Oblivious g s := by
  obtain ⟨events, hf⟩ := hf
  have own : g s = f s := eq s.port s.trace
  exact ⟨events, fun port trace => by rw [eq, hf, own]⟩

theorem oblivious_id : Oblivious id s := .of_silent fun _ _ => rfl

theorem oblivious_clearValidity : Oblivious State.clearValidity s := .of_silent fun _ _ => rfl

theorem oblivious_setPhase (phase : Phase) : Oblivious (fun u => { u with phase := phase }) s := .of_silent fun _ _ => rfl

theorem oblivious_emit (e : Event) : Oblivious (State.emit · e) s := ⟨[e], fun _ _ => rfl⟩

theorem oblivious_drawn : Oblivious State.drawn s :=
  .of_silent fun port trace => by cases h : s.answers <;> simp [State.drawn, State.seenWith, h]

theorem oblivious_endErr (code : StatusCode) (idx : Nat) (reason : Reason) : Oblivious (endErr code idx reason) s :=
  ⟨[.log reason], fun _ _ => rfl⟩

theorem oblivious_wordChkBody (hi lo crc : Byte) : Oblivious (wordChkBody hi lo crc) s := by
  by_cases right : crcWord (wordOf hi lo) = crc
  · exact .of_silent fun port trace => by simp only [wordChkBody, if_pos right]; rfl
  · exact ⟨[.log .checksumMismatch], fun port trace => by simp only [wordChkBody, if_neg right]; rfl⟩

theorem oblivious_generator {body : State → State} (h : Oblivious body s.clearValidity) :
    Oblivious (generator body) s := by
  cases ready : s.phase.ready with
  | false => exact oblivious_id.congr fun _ _ => generator_busy ready
  | true => exact (h.comp oblivious_clearValidity).congr fun _ _ => generator_ready ready

theorem oblivious_launch (frame : Option (List Byte)) (words : List Word) : Oblivious (launch frame words) s := by
  cases frame with
  | none => exact oblivious_endErr ..
  | some f => exact .of_silent fun _ _ => rfl

/-- The write depends on the answer, on BE and on TXB (R85). -/
theorem oblivious_writeStep (addr : Byte) (be : Bool) : Oblivious (writeStep addr be) s := by
  have call : Oblivious ((State.emit · (.write addr s.txb s.answer.toWrite)) ∘ State.drawn) s :=
    (oblivious_emit _).comp oblivious_drawn
  by_cases goesOn : s.answer.toWrite = .ok ∨ be = true
  · exact ((oblivious_setPhase .st).comp call).congr fun _ _ => if_pos goesOn
  · exact ((oblivious_endErr .transportError 0 .writeFailed).comp call).congr fun _ _ => if_neg goesOn

theorem oblivious_settleStep (settle : Word32) (reads : Bool) : Oblivious (settleStep settle reads) s :=
  ⟨[.delay settle], fun _ _ => by cases reads <;> rfl⟩

theorem oblivious_acceptResponse (bytes : List Byte) : Oblivious (acceptResponse bytes) s := by
  cases h : checkWords bytes with
  | ok words => exact .of_silent fun port trace => by simp only [acceptResponse, h]; rfl
  | error k => exact ⟨[.log .checksumMismatch], fun port trace => by simp only [acceptResponse, h]; rfl⟩

/-- The read depends on the answer (R87). -/
theorem oblivious_readStep (addr : Byte) (rxn : BitVec 3) : Oblivious (readStep addr rxn) s := by
  have call (r : ReadResult) : Oblivious ((State.emit · (.read addr (3 * rxn.toNat) r)) ∘ State.drawn) s :=
    (oblivious_emit _).comp oblivious_drawn
  cases h : s.answer with
  | err => exact ((oblivious_endErr .transportError 0 .readFailed).comp (call .err)).congr fun _ _ => readStep_err h
  | ok b => exact ((oblivious_acceptResponse _).comp (call (.ok _))).congr fun _ _ => readStep_ok h

theorem oblivious_course (c : FramerCourse) : Oblivious c.step s := by
  have accepts (ready : s.phase.ready = true) : Oblivious c.step s :=
    ((oblivious_launch c.frame c.words).comp oblivious_clearValidity).congr fun _ _ => framer_ready ready
  cases hp : s.phase with
  | idle => exact accepts (by rw [hp]; rfl)
  | done => exact accepts (by rw [hp]; rfl)
  | wr => exact (oblivious_writeStep c.addr c.be).congr fun _ _ => framer_wr hp
  | st => exact (oblivious_settleStep c.settle c.response.isSome).congr fun _ _ => framer_st hp
  | rd =>
    cases hn : c.response with
    | none => exact oblivious_id.congr fun _ _ => by rw [FramerCourse.step, hn]; exact framer_rd_none hp
    | some n => exact (oblivious_readStep c.addr n).congr fun _ _ => by rw [FramerCourse.step, hn]; exact framer_rd hp

/-- A meaning is the reserved kind's stop, or one operation that reads neither the port nor TRACE. -/
theorem exec_oblivious (i : Instr) (s : State) :
    (∀ u, exec i u = .fault .illegalRequest) ∨ ∃ op, (∀ u, exec i u = .next (op u)) ∧ Oblivious op s := by
  rcases instr_kinds i with rfl | ⟨input, rfl⟩ | ⟨v, rfl⟩ | ⟨hi, lo, crc, rfl⟩ | ⟨c, hc⟩
  · exact .inl fun _ => rfl
  · exact .inr ⟨_, exec_crc8 input, oblivious_generator (.of_silent fun _ _ => rfl)⟩
  · exact .inr ⟨_, exec_wordEnc v, oblivious_generator (.of_silent fun _ _ => rfl)⟩
  · exact .inr ⟨_, exec_wordChk hi lo crc, oblivious_generator (oblivious_wordChkBody hi lo crc)⟩
  · exact .inr ⟨_, exec_of_course hc, oblivious_course c⟩

/-- Settles O45: the port stays and TRACE alone is exchanged. -/
theorem noMeaningReadsTheTrace : Obligations.NoMeaningReadsTheTrace := by
  intro i s trace
  rcases exec_oblivious i s with stops | ⟨op, runs, events, same⟩
  · rw [stops]
    exact stops _
  · obtain ⟨port, grows⟩ := port_and_trace_of_oblivious same
    rw [runs]
    refine ⟨events, grows, ?_⟩
    calc exec i { s with trace := trace }
      _ = .next (op (s.seenWith s.port trace)) := runs _
      _ = .next ((op s).seenWith s.port (trace ++ events)) := by rw [same]
      _ = .next { op s with trace := trace ++ events } := by rw [← port]; rfl

/-- Settles O13: TRACE stays and the port alone is exchanged. -/
theorem busyStepIgnoresThePort : Obligations.BusyStepIgnoresThePort := by
  intro s p busy script
  change step (s.seenWith p s.trace) = _
  cases hd : decode s.req with
  | error e => rw [step_stuck busy hd, step_stuck (s := s.seenWith p s.trace) busy hd]
  | ok i =>
    rw [step_progresses busy hd, step_progresses (s := s.seenWith p s.trace) busy hd, thenHost_exec script,
      thenHost_exec (s := s.seenWith p s.trace) script]
    rcases exec_oblivious i s with stops | ⟨op, runs, events, same⟩
    · rw [stops, stops]
    · obtain ⟨_, grows⟩ := port_and_trace_of_oblivious same
      rw [runs, runs, same, ← grows]
      rfl

/-! ### What stops the machine (R58, R125) -/

theorem ifValid_error_iff {valid : Bool} {value : Word} {f : Fault} :
    ifValid valid value = .error f ↔ valid = false ∧ f = .unwrittenResult := by
  cases valid <;> simp [ifValid, eq_comm (a := f)]

/-- A host read fails in one way only, and exactly for an unwritten result register (R25, R32). -/
theorem hostRead_error_iff {signal : StatusSignal} {f : Fault} :
    hostRead signal s = .error f ↔ unwritten signal s ∧ f = .unwrittenResult := by
  cases signal
  case status => exact ifValid_error_iff
  case crcOut => exact ifValid_error_iff
  case enc => exact ifValid_error_iff
  case rxwn => exact ifValid_error_iff
  case rxw => exact ifValid_error_iff
  all_goals simp [hostRead, unwritten]

/-- Reads of the status port do not see the request port. -/
theorem hostRead_withdraw (signal : StatusSignal) : hostRead signal s.withdraw = hostRead signal s := by
  cases signal <;> rfl

/-- The host's turn answers a state, or stops on a read of an unwritten result. -/
theorem hostTurn_answers_or_stops (taken : Bool) (s : State) :
    (∃ t, hostTurn taken s = .next t) ∨
    (hostTurn taken s = .fault .unwrittenResult ∧ ∃ signal rest, s.hostNext = .read signal :: rest ∧
      unwritten signal s ∧ hostRead signal s = .error .unwrittenResult) := by
  have script : (if taken then s.withdraw else s).hostNext = s.hostNext := by cases taken <;> rfl
  have read (signal : StatusSignal) : hostRead signal (if taken then s.withdraw else s) = hostRead signal s := by
    cases taken
    · rfl
    · exact hostRead_withdraw signal
  rw [hostTurn, script]
  cases s.hostNext with
  | nil => exact .inl ⟨_, rfl⟩
  | cons move rest =>
    cases move with
    | drive p => exact .inl ⟨_, rfl⟩
    | queue r => exact .inl ⟨_, rfl⟩
    | read signal =>
      simp only [read]
      cases h : hostRead signal s with
      | ok v => exact .inl ⟨_, rfl⟩
      | error f =>
        obtain ⟨missing, rfl⟩ := hostRead_error_iff.1 h
        exact .inr ⟨rfl, signal, rest, rfl, missing, h⟩

/-- What the decoder refuses is illegal (R58). -/
theorem illegal_of_decode_error {r : Request} {e : DecodeError} (h : decode r = .error e) : illegal r := by
  unfold decode at h
  split at h
  · cases h
  split at h
  · next reserved =>
    refine .inr (.inl ?_)
    by_contra clear
    simp only [not_or, not_not, Bool.not_eq_true] at clear
    obtain ⟨h7, h11, h17, h24⟩ := clear
    rw [Request.reservedClear, h7, h11, h17, h24] at reserved
    exact absurd reserved (by decide)
  split at h
  · next be => exact .inr (.inr (.inl (by simpa using be)))
  split at h
  · next kind =>
    have kind : r.kind = 0#3 := BitVec.eq_of_toNat_eq kind
    split at h
    · cases h
    · next len => exact .inr (.inr (.inr (.inl ⟨kind, by omega⟩)))
  · cases h
  · cases h
  · cases h
  · next kind =>
    have kind : r.kind = 4#3 := BitVec.eq_of_toNat_eq kind
    split at h
    · next rxn => exact .inr (.inr (.inr (.inr ⟨.inl kind, rxn⟩)))
    · cases h
  · next kind =>
    have kind : r.kind = 5#3 := BitVec.eq_of_toNat_eq kind
    split at h
    · next rxn => exact .inr (.inr (.inr (.inr ⟨.inr kind, rxn⟩)))
    · cases h
  · cases h

theorem illegal_of_decode_reserved {r : Request} (h : decode r = .ok .reservedKind7) : illegal r := by
  rcases decode_cases h with ⟨kind, _⟩ | ⟨_, _, h⟩ | ⟨_, h⟩ | ⟨_, h⟩ | ⟨_, h⟩ | ⟨_, _, h⟩ | ⟨_, _, h⟩ | ⟨_, h⟩
  · exact .inl kind
  all_goals cases h

/-- A step that is the host's turn after the block's own step to `u` answers, or stops on a read of what `u` has not
written. -/
theorem hostTurn_after_ownStep {taken : Bool} {u : State} (own : ownStep s u) (script : u.hostNext = s.hostNext)
    (h : step s = hostTurn taken u) :
    (∃ t, step s = .next t) ∨
    (step s = .fault .unwrittenResult ∧ ∃ signal rest u, s.hostNext = .read signal :: rest ∧ ownStep s u ∧
      unwritten signal u ∧ hostRead signal u = .error .unwrittenResult) := by
  rw [h, ← script]
  rcases hostTurn_answers_or_stops taken u with answers | ⟨stops, signal, rest, move, missing, error⟩
  · exact .inl answers
  · exact .inr ⟨stops, signal, rest, u, move, own, missing, error⟩

/-- A busy block that meets the invariant has a framer request in REQ, so its next step answers (R124). -/
theorem busy_answers (inv : s.Inv) (busy : s.phase.ready = false) :
    ∃ i u, decode s.req = .ok i ∧ exec i s = .next u := by
  obtain ⟨_, _, _, progress, _⟩ := inv
  obtain ⟨i, c, hd, hc, _⟩ := (progressFits_iff busy).1 progress
  exact ⟨i, c.step s, hd, exec_of_course (by rwa [decode_expand hd]) s⟩

/-- Settles O16: a busy block's own step answers, a ready one's is refused only for an illegal request, and then the host has
its turn. -/
theorem onlyTheTwoModelFaultsStop : Obligations.OnlyTheTwoModelFaultsStop := by
  intro s inv
  cases ready : s.phase.ready with
  | false =>
    obtain ⟨i, u, hd, hu⟩ := busy_answers inv ready
    have h : step s = hostTurn false u := by rw [step_progresses ready hd, hu]; rfl
    exact (hostTurn_after_ownStep (.inr (.inr ⟨ready, i, hd, hu⟩)) (exec_keepsEnvironment hu).hostNext h).imp_right .inr
  | true =>
    cases valid : s.port.valid with
    | false =>
      exact (hostTurn_after_ownStep (.inr (.inl ⟨ready, valid, rfl⟩)) rfl (step_waits ready valid)).imp_right .inr
    | true =>
      cases hd : decode s.port.req with
      | error e => exact .inr (.inl ⟨step_refuses ready valid hd, rfl, rfl, illegal_of_decode_error hd⟩)
      | ok i =>
        by_cases reserved : i = .reservedKind7
        · subst reserved
          exact .inr (.inl ⟨by rw [step_accepts ready valid hd]; rfl, rfl, rfl, illegal_of_decode_reserved hd⟩)
        · obtain ⟨u, hu⟩ := exec_answers reserved s.latch
          have h : step s = hostTurn true u := by rw [step_accepts ready valid hd, hu]; rfl
          exact (hostTurn_after_ownStep (.inl ⟨ready, valid, i, hd, hu⟩) (exec_keepsEnvironment hu).hostNext h).imp_right
            .inr

/-! ### Who writes the result registers and the buffers (R18, R19, R22 to R24) -/

/-- From `s` to `t` the framer's registers stand, and RXW does not become valid. -/
structure KeepsFramerRegisters (s t : State) : Prop where
  rxw : t.rxw = s.rxw
  vRxw : s.vRxw = false → t.vRxw = false
  rxb : t.rxb = s.rxb
  txb : t.txb = s.txb

/-- What a step of the course `c` from `s` to `t` may write: RXW and its validity bit in an RD step that ends OK, RXB in an RD
step, TXB at acceptance, and no register of the generator. -/
structure WritesByPhase (c : FramerCourse) (s t : State) : Prop where
  crcOut : t.crcOut = s.crcOut
  enc : t.enc = s.enc
  rxw : t.rxw ≠ s.rxw ∨ (s.vRxw = false ∧ t.vRxw = true) →
    (∃ n, c.response = some n) ∧ s.phase = .rd ∧ t.phase = .done ∧ t.code = 0#2
  rxb : t.rxb ≠ s.rxb → (∃ n, c.response = some n) ∧ s.phase = .rd
  txb : t.txb ≠ s.txb → s.phase.ready = true ∧ t.phase = .wr

theorem keepsFramerRegisters_refl (s : State) : KeepsFramerRegisters s s := ⟨rfl, id, rfl, rfl⟩

theorem KeepsFramerRegisters.not_exposed (keeps : KeepsFramerRegisters s t) :
    ¬ (t.rxw ≠ s.rxw ∨ (s.vRxw = false ∧ t.vRxw = true)) := by
  rintro (changed | ⟨old, new⟩)
  · exact changed keeps.rxw
  · simp [keeps.vRxw old] at new

theorem KeepsFramerRegisters.writesByPhase {c : FramerCourse} (keeps : KeepsFramerRegisters s t)
    (crcOut : t.crcOut = s.crcOut) (enc : t.enc = s.enc) : WritesByPhase c s t :=
  ⟨crcOut, enc, fun h => (keeps.not_exposed h).elim, fun h => (h keeps.rxb).elim, fun h => (h keeps.txb).elim⟩

theorem course_writesByPhase (c : FramerCourse) (s : State) : WritesByPhase c s (c.step s) := by
  rw [FramerCourse.step]
  obtain ⟨answers, draws, drawn⟩ : ∃ answers draws, s.drawn = { s with answers := answers, draws := draws } :=
    ⟨_, _, s.drawn_eq⟩
  rcases framer_cases c.addr c.be c.frame c.words c.settle c.response s with
    ⟨_, _, tooLarge⟩ | ⟨ready, f, _, launched⟩ | ⟨_, _, written⟩ | ⟨_, _, _, writeFailed⟩ | ⟨_, _, settled⟩ |
    ⟨_, _, settledLast⟩ | ⟨_, _, unchanged⟩ | ⟨_, n, _, _, readFailed⟩ | ⟨rd, n, b, values, hn, _, _, good⟩ |
    ⟨rd, n, b, k, hn, _, _, bad⟩
  · rw [tooLarge]
    exact KeepsFramerRegisters.writesByPhase ⟨rfl, fun _ => rfl, rfl, rfl⟩ rfl rfl
  · rw [launched]
    exact ⟨rfl, rfl, fun h => by simp at h, fun h => (h rfl).elim, fun _ => ⟨ready, rfl⟩⟩
  · rw [written, drawn]
    exact KeepsFramerRegisters.writesByPhase ⟨rfl, id, rfl, rfl⟩ rfl rfl
  · rw [writeFailed, drawn]
    exact KeepsFramerRegisters.writesByPhase ⟨rfl, id, rfl, rfl⟩ rfl rfl
  · rw [settled]
    exact KeepsFramerRegisters.writesByPhase ⟨rfl, id, rfl, rfl⟩ rfl rfl
  · rw [settledLast]
    exact KeepsFramerRegisters.writesByPhase ⟨rfl, id, rfl, rfl⟩ rfl rfl
  · rw [unchanged]
    exact KeepsFramerRegisters.writesByPhase ⟨rfl, id, rfl, rfl⟩ rfl rfl
  · rw [readFailed, drawn]
    exact KeepsFramerRegisters.writesByPhase ⟨rfl, id, rfl, rfl⟩ rfl rfl
  · rw [good, drawn]
    exact ⟨rfl, rfl, fun _ => ⟨⟨n, hn⟩, rd, rfl, statusByte_code .ok 0⟩, fun _ => ⟨⟨n, hn⟩, rd⟩, fun h => (h rfl).elim⟩
  · rw [bad, drawn]
    exact ⟨rfl, rfl, fun h => by simp at h, fun _ => ⟨⟨n, hn⟩, rd⟩, fun h => (h rfl).elim⟩

theorem crc8_keepsRegisters (input : List Byte) (s : State) :
    KeepsFramerRegisters s (generator (crc8Body input) s) ∧ (generator (crc8Body input) s).enc = s.enc :=
  generator_induction (P := fun t => KeepsFramerRegisters s t ∧ t.enc = s.enc) ⟨keepsFramerRegisters_refl s, rfl⟩
    ⟨⟨rfl, fun _ => rfl, rfl, rfl⟩, rfl⟩

theorem wordEnc_keepsRegisters (v : Word) (s : State) :
    KeepsFramerRegisters s (generator (wordEncBody v) s) ∧ (generator (wordEncBody v) s).crcOut = s.crcOut :=
  generator_induction (P := fun t => KeepsFramerRegisters s t ∧ t.crcOut = s.crcOut) ⟨keepsFramerRegisters_refl s, rfl⟩
    ⟨⟨rfl, fun _ => rfl, rfl, rfl⟩, rfl⟩

theorem wordChk_keepsRegisters (hi lo crc : Byte) (s : State) :
    KeepsFramerRegisters s (generator (wordChkBody hi lo crc) s) ∧
    (generator (wordChkBody hi lo crc) s).crcOut = s.crcOut ∧ (generator (wordChkBody hi lo crc) s).enc = s.enc := by
  refine generator_induction (P := fun t => KeepsFramerRegisters s t ∧ t.crcOut = s.crcOut ∧ t.enc = s.enc)
    ⟨keepsFramerRegisters_refl s, rfl, rfl⟩ ?_
  rcases wordChkBody_cases hi lo crc s.clearValidity with ok | bad
  · rw [ok]; exact ⟨⟨rfl, fun _ => rfl, rfl, rfl⟩, rfl, rfl⟩
  · rw [bad]; exact ⟨⟨rfl, fun _ => rfl, rfl, rfl⟩, rfl, rfl⟩

/-- Settles O47: CRC8 and WORD_ENC write their own register, WORD_CHK none, and a framer request what its phase says. -/
theorem resultRegistersHaveOneWriter : Obligations.ResultRegistersHaveOneWriter := by
  intro i s t h
  rcases exec_next_cases h with ⟨input, rfl, rfl⟩ | ⟨v, rfl, rfl⟩ | ⟨hi, lo, crc, rfl, rfl⟩ | ⟨c, hc, rfl⟩
  · obtain ⟨keeps, enc⟩ := crc8_keepsRegisters input s
    exact ⟨fun _ => ⟨input, rfl⟩, fun h => (h enc).elim, fun h => (keeps.not_exposed h).elim,
      fun h => (h keeps.rxb).elim, fun h => (h keeps.txb).elim⟩
  · obtain ⟨keeps, crcOut⟩ := wordEnc_keepsRegisters v s
    exact ⟨fun h => (h crcOut).elim, fun _ => ⟨v, rfl⟩, fun h => (keeps.not_exposed h).elim,
      fun h => (h keeps.rxb).elim, fun h => (h keeps.txb).elim⟩
  · obtain ⟨keeps, crcOut, enc⟩ := wordChk_keepsRegisters hi lo crc s
    exact ⟨fun h => (h crcOut).elim, fun h => (h enc).elim, fun h => (keeps.not_exposed h).elim,
      fun h => (h keeps.rxb).elim, fun h => (h keeps.txb).elim⟩
  · obtain ⟨crcOut, enc, rxw, rxb, txb⟩ := course_writesByPhase c s
    refine ⟨fun h => (h crcOut).elim, fun h => (h enc).elim, fun h => ?_, fun h => ?_, fun h => ?_⟩
    · obtain ⟨⟨n, hn⟩, ended⟩ := rxw h
      exact ⟨reads_of_course hc hn, ended⟩
    · obtain ⟨⟨n, hn⟩, rd⟩ := rxb h
      exact ⟨reads_of_course hc hn, rd⟩
    · exact ⟨isFramer_of_course hc, txb h⟩

/-! ### What the host reads (R25, R28, R32) -/

theorem ofBool_setWidth (b : Bool) : (BitVec.ofBool b).setWidth 16 = if b then 1#16 else 0#16 := by
  cases b <;> rfl

@[simp] theorem hostRead_vStatus : hostRead .vStatus s = .ok (if s.vStatus then 1#16 else 0#16) :=
  congrArg Except.ok (ofBool_setWidth s.vStatus)
@[simp] theorem hostRead_vCrcOut : hostRead .vCrcOut s = .ok (if s.vCrcOut then 1#16 else 0#16) :=
  congrArg Except.ok (ofBool_setWidth s.vCrcOut)
@[simp] theorem hostRead_vEnc : hostRead .vEnc s = .ok (if s.vEnc then 1#16 else 0#16) :=
  congrArg Except.ok (ofBool_setWidth s.vEnc)
@[simp] theorem hostRead_vRxw : hostRead .vRxw s = .ok (if s.vRxw then 1#16 else 0#16) :=
  congrArg Except.ok (ofBool_setWidth s.vRxw)

/-- The four signals derived from phase (R16, R28). -/
theorem hostRead_phase_flags (s : State) :
    hostRead .phase s = .ok (s.phase.bits.setWidth 16) ∧
    hostRead .reqReady s = .ok (if s.phase.ready then 1#16 else 0#16) ∧
    hostRead .busy s = .ok (if s.phase.ready then 0#16 else 1#16) ∧
    hostRead .done s = .ok (if s.phase = .done then 1#16 else 0#16) := by
  refine ⟨rfl, congrArg Except.ok (ofBool_setWidth _), ?_, ?_⟩
  · rw [hostRead, State.busy]; cases s.phase.ready <;> rfl
  · rw [hostRead, State.isDone]; cases s.phase <;> rfl

/-- Settles O52. -/
theorem statusPortShowsPhaseAndFlags : Obligations.StatusPortShowsPhaseAndFlags := by
  intro s
  obtain ⟨phase, reqReady, busy, done⟩ := hostRead_phase_flags s
  refine ⟨?_, ?_, ?_, done, hostRead_vStatus, hostRead_vCrcOut, hostRead_vEnc, hostRead_vRxw, ?_, ?_⟩
  · rw [phase]; cases s.phase <;> rfl
  · rw [reqReady]; cases s.phase <;> rfl
  · rw [busy]; cases s.phase <;> rfl
  · rintro ⟨_, _, validity, _, _⟩ idle
    unfold State.validityFits at validity
    rw [idle] at validity
    obtain ⟨vStatus, ⟨vCrcOut, vEnc, vRxw⟩, _⟩ := validity
    simp [vStatus, vCrcOut, vEnc, vRxw]
  · rintro ⟨_, _, validity, _, _⟩ done
    unfold State.validityFits at validity
    rw [done] at validity
    obtain ⟨vStatus, _⟩ := validity
    simp [vStatus]

/-- Settles O49: the invariant hides every result of a busy block. -/
theorem busyStatusPortShowsNoResult : Obligations.BusyStatusPortShowsNoResult := by
  intro s inv notReady
  obtain ⟨vStatus, vCrcOut, vEnc, vRxw⟩ := busy_exposes_nothing inv notReady
  obtain ⟨phase, reqReady, busy, done⟩ := hostRead_phase_flags s
  have notDone : s.phase ≠ .done := fun h => by simp [h, Phase.ready] at notReady
  have unwritten_read {signal : StatusSignal} (h : unwritten signal s) : hostRead signal s = .error .unwrittenResult :=
    hostRead_error_iff.2 ⟨h, rfl⟩
  refine ⟨by simp [busy, notReady], by simp [reqReady, notReady], by simp [done, notDone], by simp [vStatus], by simp [vCrcOut],
    by simp [vEnc], by simp [vRxw], ?_, unwritten_read vStatus, unwritten_read vCrcOut, unwritten_read vRxw,
    fun _ => unwritten_read vEnc, fun _ => unwritten_read vRxw⟩
  rw [phase]
  cases hp : s.phase with
  | idle => simp [hp, Phase.ready] at notReady
  | done => exact (notDone hp).elim
  | wr => exact .inl ⟨rfl, rfl⟩
  | st => exact .inr (.inl ⟨rfl, rfl⟩)
  | rd => exact .inr (.inr ⟨rfl, rfl⟩)

/-- Settles O14. -/
theorem resultReadsNeedTheirValidityBit : Obligations.ResultReadsNeedTheirValidityBit := by
  intro s
  refine ⟨rfl, rfl, fun _ => rfl, rfl, fun i invalid => hostRead_error_iff.2 ⟨invalid, rfl⟩, fun i v valid word => ?_⟩
  simp [hostRead, ifValid, valid, List.getD_eq_getElem?_getD, word]

/-- Settles O15: the block waits, and the read is the host's turn. -/
theorem hostReadsChangeNothingOrFault : Obligations.HostReadsChangeNothingOrFault := by
  intro s signal rest ready idle script
  rw [step_waits ready idle]
  exact ⟨fun f h => by simp [hostTurn, script, h], fun v h => by simp [hostTurn, script, h]⟩

/-- Settles O40. -/
theorem resetLeavesNothingReadable : Obligations.ResetLeavesNothingReadable :=
  ⟨rfl, rfl, rfl, rfl, rfl, rfl, rfl, rfl, rfl, fun _ => rfl, fun _ => rfl⟩

/-! ### Endings, the pure kinds' next states, and the catalog's descriptors -/

/-- CHECKSUM_ERROR with a word's index, as a number (R21). -/
theorem statusByte_checksumError {idx : Nat} (le : idx ≤ 5) :
    statusByte .checksumError idx = BitVec.ofNat 8 (4 * idx + 2) := by
  interval_cases idx <;> rfl

/-- Settles O33. -/
theorem requestEndings : Obligations.RequestEndings := by
  intro s idx reason le
  refine ⟨rfl, rfl, ?_⟩
  rw [endErr, statusByte_checksumError le]

/-- Settles O18. -/
theorem crc8WritesCrcOut : Obligations.Crc8WritesCrcOut := by
  refine ⟨fun input s ready => ?_, rfl, by decide⟩
  rw [exec_crc8, generator_ready ready]
  rfl

/-- Settles O19. -/
theorem wordEncWritesEnc : Obligations.WordEncWritesEnc := by
  intro v s ready
  rw [exec_wordEnc, generator_ready ready]
  rfl

/-- Settles O7: the expansion's descriptor is the ROM row's, field by field. -/
theorem catalogCommandsEncodeTheirRomRow : Obligations.CatalogCommandsEncodeTheirRomRow := by
  intro i k dev values h
  cases i <;> cases h
  all_goals exact ⟨_, rfl, rfl, rfl⟩

end Sys2Proof.Machine


/-! PROOFS of the family 20_memory: what of a growing TRACE is observed. -/

namespace Sys2Proof.Machine

/-! ### The observation of a trace that grows by one event (R44) -/

theorem observed_append_of_observable {e : Event} (trace : List Event) (seen : e.observable = true) :
    observed (trace ++ [e]) = observed trace ++ [e] := by
  simp [observed, List.filter_append, seen]

theorem observed_append_of_not_observable {e : Event} (trace : List Event) (hidden : e.observable = false) :
    observed (trace ++ [e]) = observed trace := by
  simp [observed, List.filter_append, hidden]

theorem Event.observable_delay {ms : Word32} : (Event.delay ms).observable = true ↔ ms ≠ 0#32 := bne_iff_ne

/-- Whether the request reads or ends after it, a settle step adds its D event alone (R86). -/
@[simp] theorem settleStep_trace (ms : Word32) (reads : Bool) (s : State) :
    (settleStep ms reads s).trace = s.trace ++ [.delay ms] := by
  cases reads with
  | true => rw [settleStep_reads, State.emit_trace]
  | false => rw [settleStep_ends, endOk_trace, State.emit_trace]

/-- Settles O46. -/
theorem diagnosticsAndZeroDelaysAreNotObserved : Obligations.DiagnosticsAndZeroDelaysAreNotObserved := by
  intro s code idx reason ms reads
  refine ⟨by rw [endOk_trace], ?failed, ?noDelay, fun nonzero => ?delay⟩
  case failed => rw [endErr_trace, observed_append_of_not_observable _ rfl]
  case noDelay => rw [settleStep_trace, observed_append_of_not_observable _ rfl]
  case delay => rw [settleStep_trace, observed_append_of_observable _ (Event.observable_delay.mpr nonzero)]

end Sys2Proof.Machine

/-! PROOFS of the family 30_encoding: what decodes and to what, the round trip, what R58 makes illegal, the catalog by its
expansion, and the courses of the requests that write and settle. -/

namespace Sys2Proof.Laws.CatalogExpansion

/-- Every term has the properties of `Statement` (R71, R72). -/
theorem holds : ∀ i : Instr, Statement i
  | .crc8 input => crc8 input
  | .wordEnc v => wordEnc v
  | .wordChk hi lo crc => wordChk hi lo crc
  | .write addr opcode words settle => write addr opcode words settle
  | .writeRead addr opcode words rxn settle => writeRead addr opcode words rxn settle
  | .read addr opcode rxn settle => read addr opcode rxn settle
  | .writeByte be addr byte settle => writeByte be addr byte settle
  | .reservedKind7 => reservedKind7
  | .startCont dev => startCont dev
  | .stopCont dev => stopCont dev
  | .setRht dev t h => setRht dev t h
  | .setPressure dev p => setPressure dev p
  | .measureSingle dev => measureSingle dev
  | .enterSleep dev => enterSleep dev
  | .exitSleep dev => exitSleep dev
  | .conditioning dev => conditioning dev
  | .softReset => softReset
  | .factoryReset dev => factoryReset dev
  | .selfTest dev => selfTest dev
  | .enableTest dev => enableTest dev
  | .disableTest dev => disableTest dev
  | .frc dev target => frc dev target
  | .getProductId dev => getProductId dev
  | .readMeas dev => readMeas dev

end Sys2Proof.Laws.CatalogExpansion

namespace Sys2Proof.Machine

open Sys2Proof.Claims

variable {r r' : Request} {i : Instr}

/-! ### What decodes, and to what (R56, R58 to R60) -/

/-- The request of a descriptor's kind, its operands from the kind's own fields (R57). -/
def requestOf (r : Request) : Instr :=
  match r.kind.toNat with
  | 0 => .crc8 (r.oprBytes r.len.toNat)
  | 1 => .wordEnc r.opcode
  | 2 => .wordChk (r.opr[0]) (r.opr[1]) (r.opr[2])
  | 3 => .write r.addr r.opcode r.words r.settle
  | 4 => .writeRead r.addr r.opcode r.words r.rxn r.settle
  | 5 => .read r.addr r.opcode r.rxn r.settle
  | 6 => .writeByte r.be r.addr r.byte r.settle
  | _ => .reservedKind7

theorem decode_ok_requestOf (h : decode r = .ok i) : i = requestOf r := by
  rcases decode_cases h with ⟨k, rfl⟩ | ⟨k, _, rfl⟩ | ⟨k, rfl⟩ | ⟨k, rfl⟩ | ⟨k, rfl⟩ | ⟨k, _, rfl⟩ | ⟨k, _, rfl⟩ | ⟨k, rfl⟩ <;>
    simp [requestOf, k]

/-- What decodes has passed the two checks that every kind but 7 shares (R57, R58). -/
theorem decode_ok_common (h : decode r = .ok i) (kind : r.kind ≠ 7#3) :
    r.reservedClear = true ∧ (r.be = true → r.kind = 6#3) := by
  unfold decode at h
  rw [if_neg kind] at h
  split at h
  · cases h
  next clear =>
    split at h
    · cases h
    next be => exact ⟨by simpa using clear, by simpa using be⟩

theorem reservedClear_iff : r.reservedClear = true ↔
    ¬ (r.ctrl.getLsbD 7 = true ∨ r.ctrl.getLsbD 11 = true ∨ r.ctrl.extractLsb' 17 7 ≠ 0#7 ∨
      r.cmd.extractLsb' 24 8 ≠ 0#8) := by
  simp [Request.reservedClear, and_assoc]

/-- Each ground of R58 but KIND 7 has its check in the decoder. -/
theorem legal_of_decode (h : decode r = .ok i) (kind : r.kind ≠ 7#3) : ¬ illegal r := by
  obtain ⟨clear, be⟩ := decode_ok_common h kind
  have byKind := decode_cases h
  rintro (kind7 | reserved | ⟨best, other⟩ | ⟨kind0, len⟩ | ⟨kind4 | kind5, rxn⟩)
  · exact kind kind7
  · exact reservedClear_iff.1 clear reserved
  · exact other (be best)
  · obtain ⟨le, _⟩ : r.len.toNat ≤ 18 ∧ _ := by simpa [kind0] using byKind
    omega
  · simp [kind4, rxn] at byKind
  · simp [kind5, rxn] at byKind

theorem decode_of_legal (legal : ¬ illegal r) : decode r = .ok (requestOf r) := by
  cases h : decode r with
  | ok i => rw [decode_ok_requestOf h]
  | error e => exact (legal (illegal_of_decode_error h)).elim

theorem decode_of_kind7 (kind : r.kind = 7#3) : decode r = .ok .reservedKind7 := if_pos kind

/-- An illegal descriptor is refused, or decodes to the reserved kind (log 8). -/
theorem decode_of_illegal (bad : illegal r) : (∃ e, decode r = .error e) ∨ decode r = .ok .reservedKind7 := by
  by_cases kind : r.kind = 7#3
  · exact .inr (decode_of_kind7 kind)
  cases h : decode r with
  | error e => exact .inl ⟨e, rfl⟩
  | ok i => exact (legal_of_decode h kind bad).elim

/-- Equal leading operand bytes are equal one by one (R55). -/
theorem opr_eq_of_oprBytes_eq {n : Nat} (same : r.oprBytes n = r'.oprBytes n) {k : Nat} (lt : k < n)
    (le : n ≤ 18) : r.opr[k] = r'.opr[k] := by
  have bytes : (r.oprBytes n)[k]? = (r'.oprBytes n)[k]? := by rw [same]
  simpa [Request.oprBytes, List.getElem?_take, lt, lt.trans_le le] using bytes

theorem kind_eq_six {k : BitVec 3} (not7 : k ≠ 7#3) (not0 : k.toNat ≠ 0) (not1 : k.toNat ≠ 1) (not2 : k.toNat ≠ 2)
    (not3 : k.toNat ≠ 3) (not4 : k.toNat ≠ 4) (not5 : k.toNat ≠ 5) : k = 6#3 := by
  bv_omega

/-- Settles O5: decoding reads the shared checks and then only fields the kind uses. -/
theorem dontCareFieldsAreIgnored : Obligations.DontCareFieldsAreIgnored := by
  rintro r r' ⟨kind, be, clear, len, value, check, payload, rxn, opcode, byte, target⟩
  unfold decode Request.words
  rw [← kind, ← be, ← clear]
  refine ite_congr rfl (fun _ => rfl) fun notKind7 => ?_
  refine ite_congr rfl (fun _ => rfl) fun _ => ite_congr rfl (fun _ => rfl) fun _ => ?_
  split
  next k =>
    obtain ⟨sameLen, sameInput⟩ := len (BitVec.eq_of_toNat_eq k)
    rw [sameInput, sameLen]
  next k => rw [value (BitVec.eq_of_toNat_eq k)]
  next k =>
    have sameBytes {j : Nat} (lt : j < 3) : r.opr[j] = r'.opr[j] :=
      opr_eq_of_oprBytes_eq (check (BitVec.eq_of_toNat_eq k)) lt (by decide)
    rw [sameBytes (j := 0) (by decide), sameBytes (j := 1) (by decide), sameBytes (j := 2) (by decide)]
  next k =>
    have k : r.kind = 3#3 := BitVec.eq_of_toNat_eq k
    obtain ⟨sameTxn, sameWords⟩ := payload (.inl k)
    obtain ⟨sameAddr, sameSettle⟩ := target (.inl k)
    rw [sameWords, sameTxn, sameAddr, sameSettle, opcode (.inl k)]
  next k =>
    have k : r.kind = 4#3 := BitVec.eq_of_toNat_eq k
    obtain ⟨sameTxn, sameWords⟩ := payload (.inr k)
    obtain ⟨sameAddr, sameSettle⟩ := target (.inr (.inl k))
    rw [sameWords, sameTxn, sameAddr, sameSettle, opcode (.inr (.inl k)), rxn (.inl k)]
  next k =>
    have k : r.kind = 5#3 := BitVec.eq_of_toNat_eq k
    obtain ⟨sameAddr, sameSettle⟩ := target (.inr (.inr (.inl k)))
    rw [sameAddr, sameSettle, opcode (.inr (.inr k)), rxn (.inr k)]
  next not0 not1 not2 not3 not4 not5 =>
    have k := kind_eq_six notKind7 not0 not1 not2 not3 not4 not5
    obtain ⟨sameAddr, sameSettle⟩ := target (.inr (.inr (.inr k)))
    rw [sameAddr, sameSettle, byte k]

/-! ### The round trip (R70 to R72) -/

/-- A descriptor put together from fields has its reserved bits 0 (R70), so four of R58's grounds are left. -/
theorem illegal_mk (kind : BitVec 3) (be : Bool) (txn rxn : BitVec 3) (len : BitVec 5) (addr byte : Byte) (opcode : Word)
    (settle : Word32) (opr : Vector Byte 18) :
    illegal ⟨ctrlWord kind be txn rxn len addr, cmdWord byte opcode, settle, opr⟩ ↔
      kind = 7#3 ∨ (be = true ∧ kind ≠ 6#3) ∨ (kind = 0#3 ∧ 18 < len.toNat) ∨
        ((kind = 4#3 ∨ kind = 5#3) ∧ rxn = 0#3) := by
  have clear := reservedClear_iff.1 (Request.reservedClear_mk kind be txn rxn len addr byte opcode settle opr)
  simp only [illegal, iff_false_intro clear, false_or, Request.kind_mk, Request.be_mk, Request.len_mk, Request.rxn_mk]

theorem cmdWord_zero : cmdWord 0#8 0#16 = 0#32 := rfl

/-- A well-formed request of a kind encodes to a legal descriptor, but for the reserved kind. -/
theorem legal_encodeKind (wf : i.wf = true) (kind : catalogUse i = none) (notReserved : i ≠ .reservedKind7) :
    ¬ illegal (encodeKind i) := by
  cases i
  case reservedKind7 => exact (notReserved rfl).elim
  case crc8 input =>
    have le : input.length ≤ 18 := by simpa [Instr.wf] using wf
    rw [encodeKind, ← cmdWord_zero, illegal_mk]
    simpa using (Nat.mod_le input.length 32).trans le
  case wordEnc v => rw [encodeKind, illegal_mk]; simp
  case wordChk hi lo crc => rw [encodeKind, ← cmdWord_zero, illegal_mk]; simp
  case write => rw [encodeKind, illegal_mk]; simp
  case writeRead addr opcode words rxn settle =>
    obtain ⟨_, rxn⟩ : words.length ≤ 7 ∧ rxn ≠ 0#3 := by simpa [Instr.wf] using wf
    rw [encodeKind, illegal_mk]; simpa using rxn
  case read => rw [encodeKind, illegal_mk]; simpa [Instr.wf] using wf
  case writeByte => rw [encodeKind, illegal_mk]; simp
  all_goals cases kind

/-- TXN payload words read back (R59). -/
theorem words_mk (kind : BitVec 3) (be : Bool) (rxn : BitVec 3) (len : BitVec 5) (addr : Byte) (cmd settle : Word32)
    {words : List Word} (le : words.length ≤ 7) :
    (Request.mk (ctrlWord kind be (.ofNat 3 words.length) rxn len addr) cmd settle
      (packOpr (words.flatMap be16))).words = words := by
  have txn : (BitVec.ofNat 3 words.length).toNat = words.length := Nat.mod_eq_of_lt (by omega)
  have fits : (words.flatMap be16).length ≤ 18 := by rw [flatMap_be16_length]; omega
  rw [Request.words, Request.txn_mk, txn, Request.oprBytes, ← flatMap_be16_length, packOpr_take _ fits, pairWords_flatMap]

theorem requestOf_encodeKind (wf : i.wf = true) (kind : catalogUse i = none) : requestOf (encodeKind i) = i := by
  cases i
  case reservedKind7 => simp [requestOf, encodeKind]
  case crc8 input =>
    have le : input.length ≤ 18 := by simpa [Instr.wf] using wf
    have len : input.length % 32 = input.length := by omega
    simp [requestOf, encodeKind, Request.oprBytes, len, packOpr_take, le]
  case wordEnc v => simp [requestOf, encodeKind]
  case wordChk hi lo crc => simp [requestOf, encodeKind, packOpr]
  case write addr opcode words settle =>
    have le : words.length ≤ 7 := by simpa [Instr.wf] using wf
    simp [requestOf, encodeKind, words_mk, le]
  case writeRead addr opcode words rxn settle =>
    obtain ⟨le, _⟩ : words.length ≤ 7 ∧ rxn ≠ 0#3 := by simpa [Instr.wf] using wf
    simp [requestOf, encodeKind, words_mk, le]
  case read => simp [requestOf, encodeKind]
  case writeByte => simp [requestOf, encodeKind]
  all_goals cases kind

/-- Every request of a kind comes back from its descriptor (R72); the reserved kind by KIND 7 (log 8). -/
theorem decode_encodeKind (wf : i.wf = true) (kind : catalogUse i = none) : decode (encodeKind i) = .ok i := by
  by_cases reserved : i = .reservedKind7
  · subst reserved
    exact decode_of_kind7 (Request.kind_mk ..)
  · rw [decode_of_legal (legal_encodeKind wf kind reserved), requestOf_encodeKind wf kind]

/-- A request of a kind is its own expansion (R71). -/
theorem expand_of_kind (kind : catalogUse i = none) : i.expand = i := by
  cases i <;> cases kind <;> rfl

/-- Settles O2: the expansion is a request of a kind, and those come back. -/
theorem decodeEncodeRoundTrip : Obligations.DecodeEncodeRoundTrip := by
  intro i wf
  obtain ⟨expandWf, expandKind, _⟩ := Laws.CatalogExpansion.holds i wf
  have roundTrip : decode (encode i) = .ok i.expand := decode_encodeKind expandWf expandKind
  exact ⟨roundTrip, fun kind => by rw [roundTrip, expand_of_kind kind]⟩

theorem words_length_le (r : Request) : r.words.length ≤ 7 := by
  have := r.txn.isLt
  rw [r.words_length]
  omega

theorem wf_of_decode (h : decode r = .ok i) : i.wf = true := by
  rcases decode_cases h with
    ⟨_, rfl⟩ | ⟨_, _, rfl⟩ | ⟨_, rfl⟩ | ⟨_, rfl⟩ | ⟨_, rfl⟩ | ⟨_, rxn, rfl⟩ | ⟨_, rxn, rfl⟩ | ⟨_, rfl⟩
  · rfl
  · simp [Instr.wf, Request.oprBytes]
  · rfl
  · rfl
  · simp [Instr.wf, words_length_le]
  · simp [Instr.wf, words_length_le, rxn]
  · simp [Instr.wf, rxn]
  · rfl

/-- The decoder answers no catalog command (R72; log 8). -/
theorem catalogUse_of_decode (h : decode r = .ok i) : catalogUse i = none := by
  rcases decode_cases h with
    ⟨_, rfl⟩ | ⟨_, _, rfl⟩ | ⟨_, rfl⟩ | ⟨_, rfl⟩ | ⟨_, rfl⟩ | ⟨_, _, rfl⟩ | ⟨_, _, rfl⟩ | ⟨_, rfl⟩ <;> rfl

/-- Settles O3. -/
theorem decodedRequestsAreWellFormedKinds : Obligations.DecodedRequestsAreWellFormedKinds := by
  intro r i h
  have wf := wf_of_decode h
  have kind := catalogUse_of_decode h
  exact ⟨wf, kind, (decodeEncodeRoundTrip i wf).2 kind⟩

/-- The first `n` operand bytes, one by one (R55). -/
theorem oprBytes_eq_map {n : Nat} (le : n ≤ 18) :
    r.oprBytes n = (List.range n).map fun k => r.opr.toList.getD k 0#8 := by
  apply List.ext_getElem
  · simp [Request.oprBytes, le]
  · intro k h1 h2
    have lt : k < n := by simpa using h2
    simp [Request.oprBytes, lt.trans_le le]

/-- The payload words of a string of byte pairs, one by one (R59). -/
theorem pairWords_eq_map (bytes : Nat → Byte) (n : Nat) :
    pairWords ((List.range (2 * n)).map bytes) = (List.range n).map fun k => bytes (2 * k) ++ bytes (2 * k + 1) := by
  induction n generalizing bytes with
  | zero => rfl
  | succ n ih =>
    have rest := ih fun k => bytes (k + 2)
    simp only [Nat.mul_succ, List.range_succ_eq_map, List.map_cons, List.map_map, pairWords] at rest ⊢
    exact congrArg (_ :: ·) rest

theorem words_eq_map (r : Request) :
    r.words = (List.range r.txn.toNat).map fun k =>
      r.opr.toList.getD (2 * k) 0#8 ++ r.opr.toList.getD (2 * k + 1) 0#8 := by
  have := r.txn.isLt
  rw [Request.words, oprBytes_eq_map (by omega), pairWords_eq_map]

/-- Settles O4: a legal descriptor is the request of its kind, and its operand bytes are read one by one. -/
theorem legalRequestsDecodeByTheirFields : Obligations.LegalRequestsDecodeByTheirFields := by
  intro r legal opr addr opcode txn words rxn
  have decodes := decode_of_legal legal
  have sameWords : r.words = words := words_eq_map r
  refine ⟨fun kind => ?_, fun kind => ?_, fun kind => ?_, fun kind => ?_, fun kind => ?_, fun kind => ?_, fun kind => ?_⟩ <;>
    rw [decodes, requestOf, kind]
  · have len : r.len.toNat ≤ 18 := by
      by_contra tooLong
      exact legal (.inr (.inr (.inr (.inl ⟨kind, by omega⟩))))
    exact congrArg (Except.ok ∘ Instr.crc8) (oprBytes_eq_map len)
  · rfl
  · simp [opr]
  · rw [← sameWords]; rfl
  · rw [← sameWords]; rfl
  · rfl
  · rfl

/-! ### What R58 makes illegal stops the model, and an oversize request ends at acceptance (R58, R83) -/

/-- A request that decodes to a kind but the reserved one has a next state, before the host's turn. -/
theorem exec_of_legal (legal : ¬ illegal r) (hd : decode r = .ok i) (s : State) : ∃ t, exec i s = .next t :=
  exec_answers (fun reserved => legal (illegal_of_decode_reserved (reserved ▸ hd))) s

theorem step_of_illegal {s : State} (ready : s.phase.ready = true) (valid : s.port.valid = true)
    (bad : illegal s.port.req) : step s = .fault .illegalRequest := by
  rcases decode_of_illegal bad with ⟨e, refused⟩ | reserved
  · exact step_refuses ready valid refused
  · rw [step_accepts ready valid reserved]; rfl

/-- The host's turn has a fault of its own (R125). -/
theorem hostTurn_ne_illegalRequest (taken : Bool) (s : State) : hostTurn taken s ≠ .fault .illegalRequest := by
  rcases hostTurn_answers_or_stops taken s with ⟨t, answers⟩ | ⟨stops, _⟩
  · simp [answers]
  · simp [stops]

theorem limitError_iff {txn rxn : Nat} : limitError txn rxn = true ↔ 4 < txn ∨ 6 < rxn := by
  simp only [limitError, Bool.or_eq_true, decide_eq_true_eq]
  omega

theorem boundedFrame_eq_none {txn rxn : Nat} {frame : List Byte} :
    boundedFrame txn rxn frame = none ↔ 4 < txn ∨ 6 < rxn := by
  rw [← limitError_iff]
  simp [boundedFrame]

/-- An oversize request has no frame (R83). -/
theorem course_of_oversize (large : oversize r) : ∃ c, courseOf (requestOf r) = some c ∧ c.frame = none := by
  rw [oversize, ← r.words_length] at large
  rcases large with ⟨kind3 | kind4, txn⟩ | ⟨kind4 | kind5, rxn⟩
  · rw [requestOf, kind3]; exact ⟨_, rfl, boundedFrame_eq_none.2 (.inl txn)⟩
  · rw [requestOf, kind4]; exact ⟨_, rfl, boundedFrame_eq_none.2 (.inl txn)⟩
  · rw [requestOf, kind4]; exact ⟨_, rfl, boundedFrame_eq_none.2 (.inr rxn)⟩
  · rw [requestOf, kind5]; exact ⟨_, rfl, boundedFrame_eq_none.2 (.inr rxn)⟩

/-- An oversize request ends at acceptance (R83). -/
theorem exec_of_oversize {s : State} (ready : s.phase.ready = true) (hd : decode r = .ok i) (large : oversize r) :
    exec i s = .next (tooLarge s) := by
  obtain ⟨c, hc, noFrame⟩ := course_of_oversize large
  rw [← decode_ok_requestOf hd] at hc
  rw [exec_of_course (by rwa [decode_expand hd]), FramerCourse.step, framer_ready ready, noFrame, launch_none]
  rfl

/-- Settles O6: what is legal has a meaning, whose next state only the host's turn can keep from being answered. -/
theorem exactlyIllegalRequestsFault : Obligations.ExactlyIllegalRequestsFault := by
  intro s ready valid
  cases Classical.em (illegal s.port.req) with
  | inl bad => exact ⟨iff_of_true (step_of_illegal ready valid bad) bad, fun legal => (legal bad).elim⟩
  | inr legal =>
    have hd := decode_of_legal legal
    obtain ⟨u, hu⟩ := exec_of_legal legal hd s.latch
    have runs : step s = hostTurn true u := by rw [step_accepts ready valid hd, hu]; rfl
    have noFault : step s ≠ .fault .illegalRequest := by rw [runs]; exact hostTurn_ne_illegalRequest true u
    refine ⟨iff_of_false noFault legal, fun _ script => ?_⟩
    have noScript : u.hostNext = [] := by rw [(exec_keepsEnvironment hu).hostNext]; exact script
    refine ⟨u.withdraw, by rw [runs, hostTurn_nil noScript]; rfl, fun large => ?_⟩
    rw [exec_of_oversize (s := s.latch) ready hd large] at hu
    cases hu
    exact ⟨rfl, rfl, rfl⟩

/-! ### The catalog by its expansion (R69, R71, R98) -/

/-- Settles O39: a catalog command's meaning is written as its expansion's course. -/
theorem catalogCommandsRunAsTheirExpansion : Obligations.CatalogCommandsRunAsTheirExpansion := by
  intro i s
  cases i <;> rfl

/-- A placed request finds a ready block (log 9). -/
theorem placing_ready (s : State) (r : Request) : (s.placing r).phase.ready = true := by
  rw [State.placing_phase]
  split
  next ready => exact ready
  next => rfl

/-- Settles O12: the round trip gives the expansion, which runs as the term does. -/
theorem placedEncodingRunsNext : Obligations.PlacedEncodingRunsNext := by
  intro i s wf
  rw [step_accepts (placing_ready s (encode i)) rfl (decodeEncodeRoundTrip i wf).1, ← catalogCommandsRunAsTheirExpansion]
  rfl

/-- Settles O8: the opcodes are the images of 0 to 13 under a permutation (log 7). -/
theorem opcodeParametersAreDistinct : Obligations.OpcodeParametersAreDistinct :=
  List.Nodup.map Config.opcode.injective
    (by decide : [0#16, 1#16, 2#16, 3#16, 4#16, 5#16, 6#16, 7#16, 8#16, 9#16, 10#16, 11#16, 12#16, 13#16].Nodup)

/-- Settles O17. -/
theorem reservedKindStops : Obligations.ReservedKindStops := fun _ => rfl

/-- Settles O1, by evaluation of the decoder on the thirteen words. -/
theorem specDescriptorsDecode : Obligations.SpecDescriptorsDecode := by
  unfold Obligations.SpecDescriptorsDecode
  decide

/-- Settles O24. -/
theorem guardedFrameLayout : Obligations.GuardedFrameLayout := by
  intro opcode words
  have length := guardedFrame_length opcode words
  refine ⟨rfl, length, ?_⟩
  rw [length, limitError_iff]
  omega

/-! ### The courses that write and settle (R82, R85, R86, R89, R92) -/

section course
variable {c : FramerCourse} {f : List Byte} {s : State}

theorem runExec_of_course (hc : courseOf i.expand = some c) (k : Nat) (s : State) :
    runExec i k s = .next (c.step^[k] s) := by
  induction k generalizing s with
  | zero => rfl
  | succ k ih => rw [runExec, exec_of_course hc]; exact ih (c.step s)

theorem accepted_answer (f : List Byte) (words : List Word) (s : State) :
    (accepted f words s).answer = s.answer := rfl

theorem accepted_drawn (f : List Byte) (words : List Word) (s : State) :
    (accepted f words s).drawn = accepted f words s.drawn := by
  cases h : s.answers <;> simp [State.drawn, accepted, h]

/-- Acceptance within the frame limits (R82, R84). -/
theorem course_accepts (ready : s.phase.ready = true) (hf : c.frame = some f) : c.step s = accepted f c.words s := by
  rw [FramerCourse.step, framer_ready ready, hf]; rfl

/-- A request that does not read: its write goes on, by its result or by BE, and the delay ends it (R85, R86). -/
theorem course_settles (ready : s.phase.ready = true) (hf : c.frame = some f) (writeOnly : c.response = none)
    (goesOn : s.answer.toWrite = .ok ∨ c.be = true) :
    c.step^[3] s = endedWith 0x00#8 s [.write c.addr f s.answer.toWrite, .delay c.settle]
      (accepted f c.words s.drawn) := by
  have written : c.step (accepted f c.words s) =
      { (accepted f c.words s.drawn).emit (.write c.addr f s.answer.toWrite) with phase := .st } := by
    rw [FramerCourse.step, framer_wr rfl, ← accepted_drawn]
    exact if_pos (by rwa [accepted_answer])
  calc c.step^[3] s
    _ = c.step (c.step (accepted f c.words s)) := by rw [← course_accepts ready hf]; rfl
    _ = c.step { (accepted f c.words s.drawn).emit (.write c.addr f s.answer.toWrite) with phase := .st } := by rw [written]
    _ = endOk (State.emit { (accepted f c.words s.drawn).emit (.write c.addr f s.answer.toWrite) with phase := .st }
          (.delay c.settle)) := by
      rw [FramerCourse.step, framer_st rfl, writeOnly]; rfl
    _ = _ := by simp [endOk, State.emit, endedWith, accepted, statusByte_ok]

/-- A failed write ends a request without BE (R85, R117). -/
theorem course_ends_on_write_error (ready : s.phase.ready = true) (hf : c.frame = some f) (strict : c.be = false)
    (failed : s.answer = .err) :
    c.step^[2] s = endedWith 0x01#8 s [.write c.addr f .err, .log .writeFailed] (accepted f c.words s.drawn) := by
  calc c.step^[2] s
    _ = c.step (accepted f c.words s) := by rw [← course_accepts ready hf]; rfl
    _ = endErr .transportError 0 .writeFailed ((accepted f c.words s.drawn).emit (.write c.addr f .err)) := by
      rw [FramerCourse.step, framer_wr rfl, strict, writeStep_err ((accepted_answer f c.words s).trans failed),
        accepted_drawn]; rfl
    _ = _ := by simp [endErr, State.emit, endedWith, accepted]; rfl

theorem writesThenSettles_of_course (hc : courseOf i.expand = some c) (hf : c.frame = some f)
    (writeOnly : c.response = none) : WritesThenSettles i c.addr f c.words c.settle := by
  intro s ready
  refine ⟨by rw [exec_of_course hc, course_accepts ready hf], fun b ok => ?_⟩
  have wrote : s.answer.toWrite = .ok := by rw [ok]; rfl
  rw [runExec_of_course hc, course_settles ready hf writeOnly (.inl wrote), wrote]

theorem endsOnWriteError_of_course (hc : courseOf i.expand = some c) (hf : c.frame = some f) (strict : c.be = false) :
    EndsOnWriteError i c.addr f c.words := by
  intro s ready failed
  rw [runExec_of_course hc, course_ends_on_write_error ready hf strict failed]

theorem settlesWhateverTheWrite_of_course (hc : courseOf i.expand = some c) (hf : c.frame = some f)
    (writeOnly : c.response = none) (noWords : c.words = []) (bestEffort : c.be = true) :
    SettlesWhateverTheWrite i c.addr f c.settle := by
  intro s ready
  rw [exec_of_course hc, course_accepts ready hf, runExec_of_course hc,
    course_settles ready hf writeOnly (.inr bestEffort), noWords]
  exact ⟨rfl, rfl⟩

end course

/-- Settles O26: up to four words are within the frame limit. -/
theorem writeSendsItsFrameAndSettles : Obligations.WriteSendsItsFrameAndSettles := by
  intro addr opcode words settle le
  have frame : boundedFrame words.length 0 (guardedFrame opcode words) = some (guardedFrame opcode words) :=
    boundedFrame_eq_some.2 ⟨by omega, rfl⟩
  exact ⟨writesThenSettles_of_course (i := .write addr opcode words settle) rfl frame rfl,
    endsOnWriteError_of_course (i := .write addr opcode words settle) rfl frame rfl⟩

/-- Settles O29. -/
theorem writeByteSendsOneByte : Obligations.WriteByteSendsOneByte := by
  intro addr byte settle
  exact ⟨writesThenSettles_of_course (i := .writeByte false addr byte settle) rfl rfl rfl,
    endsOnWriteError_of_course (i := .writeByte false addr byte settle) rfl rfl rfl,
    settlesWhateverTheWrite_of_course (i := .writeByte true addr byte settle) rfl rfl rfl rfl rfl⟩

end Sys2Proof.Machine

/-! PROOFS of the family 40_crc: the CRC-8 generator's arithmetic is linear over GF(2), the residue of a correct word frame,
WORD_CHK's two endings, and which changes of a word frame are detected. -/

namespace Sys2Proof.Machine

/-! ### Linearity (R73, R74, R81) -/

/-- The bit that leaves a shift selects the polynomial, and the XOR of two selections is the selection by the XOR. -/
theorem crc8Shift_xor (a b : Byte) : crc8Shift (a ^^^ b) = crc8Shift a ^^^ crc8Shift b := by
  simp only [crc8Shift, BitVec.getLsbD_xor, BitVec.shiftLeft_xor_distrib]
  cases a.getLsbD 7 <;> cases b.getLsbD 7
  case false.false => rfl
  case false.true => exact BitVec.xor_assoc ..
  case true.false => show a <<< 1 ^^^ b <<< 1 ^^^ 0x31#8 = a <<< 1 ^^^ 0x31#8 ^^^ b <<< 1; ac_rfl
  case true.true => calc
    a <<< 1 ^^^ b <<< 1 = a <<< 1 ^^^ b <<< 1 ^^^ (0x31#8 ^^^ 0x31#8) := (BitVec.xor_zero ..).symm
    _ = a <<< 1 ^^^ 0x31#8 ^^^ (b <<< 1 ^^^ 0x31#8) := by ac_rfl

@[simp] theorem crc8Iterate_zero (n : Nat) : crc8Iterate n 0#8 = 0#8 := by
  induction n with
  | zero => rfl
  | succ n ih => exact ih

theorem crc8Iterate_xor (n : Nat) (a b : Byte) : crc8Iterate n (a ^^^ b) = crc8Iterate n a ^^^ crc8Iterate n b := by
  induction n generalizing a b with
  | zero => rfl
  | succ n ih => rw [crc8Iterate, crc8Shift_xor, ih]; rfl

theorem crc8Step_xor (a a' b b' : Byte) : crc8Step (a ^^^ a') (b ^^^ b') = crc8Step a b ^^^ crc8Step a' b' := by
  have regrouped : a ^^^ a' ^^^ (b ^^^ b') = a ^^^ b ^^^ (a' ^^^ b') := by ac_rfl
  rw [crc8Step, regrouped, crc8Iterate_xor]; rfl

/-- A byte equal to the accumulator takes it to zero (R76). -/
@[simp] theorem crc8Step_self (a : Byte) : crc8Step a a = 0#8 := by
  rw [crc8Step, BitVec.xor_self, crc8Iterate_zero]

/-- Three computations side by side, the last over zero bytes, from any accumulators. -/
theorem foldl_crc8Step_xor (a b c : Byte) {x y : List Byte} (same : x.length = y.length) :
    (List.zipWith (fun p q => p ^^^ q) x y).foldl crc8Step (a ^^^ b ^^^ c) =
      x.foldl crc8Step a ^^^ y.foldl crc8Step b ^^^ (List.replicate x.length 0#8).foldl crc8Step c := by
  induction x generalizing a b c y with
  | nil => cases y with
    | nil => rfl
    | cons => cases same
  | cons p x ih => cases y with
    | nil => cases same
    | cons q y =>
      have step : crc8Step (a ^^^ b ^^^ c) (p ^^^ q) = crc8Step a p ^^^ crc8Step b q ^^^ crc8Step c 0#8 := by
        rw [← crc8Step_xor, ← crc8Step_xor, BitVec.xor_zero]
      rw [List.zipWith_cons_cons, List.foldl_cons, step, ih _ _ _ (Nat.succ.inj same)]; rfl

/-- The initial value 0xFF is the XOR of three of itself, one for each computation (R81). -/
theorem crc8_xor {x y : List Byte} (same : x.length = y.length) :
    crc8 (List.zipWith (fun p q => p ^^^ q) x y) = crc8 x ^^^ crc8 y ^^^ crc8 (List.replicate x.length 0#8) :=
  foldl_crc8Step_xor 0xFF#8 0xFF#8 0xFF#8 same

/-- Settles O21. -/
theorem crc8StepIsLinear : Obligations.Crc8StepIsLinear :=
  ⟨crc8Step_self 0#8, crc8Step_xor, fun _ _ => crc8_xor⟩

theorem be16_xor (v w : Word) : be16 (v ^^^ w) = List.zipWith (fun p q => p ^^^ q) (be16 v) (be16 w) := by
  simp [be16, BitVec.extractLsb'_xor]

theorem crcWord_xor (v w : Word) : crcWord (v ^^^ w) = crcWord v ^^^ crcWord w ^^^ crcWord 0#16 := by
  rw [crcWord, be16_xor]; exact crc8_xor rfl

/-! ### The residue (R76) -/

/-- Any byte string followed by its own CRC, not only a word's two bytes. -/
theorem crc8_append_own_crc (bytes : List Byte) : crc8 (bytes ++ [crc8 bytes]) = 0#8 := by
  rw [crc8, List.foldl_append]; exact crc8Step_self (crc8 bytes)

/-- Settles O22. -/
theorem correctWordFramesHaveResidueZero : Obligations.CorrectWordFramesHaveResidueZero :=
  fun v => crc8_append_own_crc (be16 v)

/-! ### WORD_CHK and the response check of one word (R80, R88) -/

theorem wordChkBody_right {hi lo c : Byte} (right : crcWord (wordOf hi lo) = c) (s : State) :
    wordChkBody hi lo c s = endOk { s with acc := crcWord (wordOf hi lo) } := if_pos right

theorem wordChkBody_wrong {hi lo c : Byte} (wrong : crcWord (wordOf hi lo) ≠ c) (s : State) :
    wordChkBody hi lo c s = endErr .checksumError 0 .checksumMismatch { s with acc := crcWord (wordOf hi lo) } :=
  if_neg wrong

/-- Settles O20. -/
theorem wordChkComparesCrcBytes : Obligations.WordChkComparesCrcBytes := by
  intro hi lo c s ready t
  rw [exec_wordChk, generator_ready ready]
  refine ⟨fun right => ?_, fun wrong => ?_⟩
  · rw [wordChkBody_right right]; rfl
  · rw [wordChkBody_wrong wrong]; rfl

theorem checkWords_one_wrong {hi lo c : Byte} (wrong : crcWord (wordOf hi lo) ≠ c) : checkWords [hi, lo, c] = .error 0 := by
  simp [checkWords, responseWords, wordGood, wrong]

/-! ### Which changes of a word frame are detected (R77) -/

/-- The part of a 24-bit frame's check that is linear: the computed CRC byte XOR the received one, less the constant CRC of
the word 0. -/
def syndrome (frame : BitVec 24) : Byte :=
  crcWord (frame.extractLsb' 8 16) ^^^ frame.extractLsb' 0 8 ^^^ crcWord 0#16

theorem syndrome_xor (x y : BitVec 24) : syndrome (x ^^^ y) = syndrome x ^^^ syndrome y := by
  rw [syndrome, BitVec.extractLsb'_xor, BitVec.extractLsb'_xor, crcWord_xor, syndrome, syndrome]
  generalize crcWord 0#16 = zero
  ac_rfl

theorem crc_matches_iff_syndrome (frame : BitVec 24) :
    crcWord (frame.extractLsb' 8 16) = frame.extractLsb' 0 8 ↔ syndrome frame = crcWord 0#16 := by
  rw [syndrome, ← BitVec.xor_eq_zero_iff, ← BitVec.xor_left_inj (crcWord 0#16), BitVec.zero_xor]

theorem syndrome_correct (v : Word) : syndrome (v ++ crcWord v : BitVec 24) = crcWord 0#16 :=
  (crc_matches_iff_syndrome _).1 (by rw [BitVec.extractLsb'_append_eq_left, BitVec.extractLsb'_append_eq_right])

/-- Whether a change is detected depends on the change alone. -/
theorem changed_matches_iff (v : Word) (change : BitVec 24) :
    let frame : BitVec 24 := (v ++ crcWord v : BitVec 24) ^^^ change
    crcWord (frame.extractLsb' 8 16) = frame.extractLsb' 0 8 ↔ syndrome change = 0#8 := by
  intro frame
  rw [crc_matches_iff_syndrome, syndrome_xor, syndrome_correct, ← BitVec.xor_right_inj (crcWord 0#16) (y := 0#8),
    BitVec.xor_zero]

/-- The change of one bit of a frame. -/
def bitFlip (i : Fin 24) : BitVec 24 := 1#24 <<< i.val

/-- Whether an odd number of a byte's bits below bit `n` are set. -/
def oddBelow : Nat → Byte → Bool
  | 0, _ => false
  | n + 1, b => oddBelow n b ^^ b.getLsbD n

theorem oddBelow_xor (n : Nat) (a b : Byte) : oddBelow n (a ^^^ b) = (oddBelow n a ^^ oddBelow n b) := by
  induction n with
  | zero => rfl
  | succ n ih => simp [oddBelow, ih, Bool.xor_left_comm]

/-- x + 1 divides the polynomial, so the CRC keeps the parity of the number of changed bits. -/
theorem oddBelow_syndrome_bitFlip : ∀ i : Fin 24, oddBelow 8 (syndrome (bitFlip i)) = true := by decide +kernel

/-- The powers of x up to 23 are distinct modulo the polynomial. -/
theorem syndrome_bitFlip_injective : ∀ i j : Fin 24, syndrome (bitFlip i) = syndrome (bitFlip j) → i = j := by
  decide +kernel

theorem syndrome_three_flips_ne_zero (i j k : Fin 24) : syndrome (bitFlip i ^^^ bitFlip j ^^^ bitFlip k) ≠ 0#8 := by
  intro undetected
  have odd := congrArg (oddBelow 8) undetected
  simp only [syndrome_xor, oddBelow_xor, oddBelow_syndrome_bitFlip] at odd
  cases odd

theorem syndrome_two_flips_ne_zero {i j : Fin 24} (ne : i ≠ j) : syndrome (bitFlip i ^^^ bitFlip j) ≠ 0#8 := by
  rw [syndrome_xor]
  exact fun undetected => ne (syndrome_bitFlip_injective i j (BitVec.xor_eq_zero_iff.1 undetected))

theorem getLsbD_bitFlip (i : Fin 24) (n : Nat) : (bitFlip i).getLsbD n = decide (i.val = n) := by
  rw [bitFlip, ← BitVec.twoPow_eq, BitVec.getLsbD_twoPow, decide_eq_true i.isLt, Bool.true_and]

theorem or_bitFlip {x : BitVec 24} {i : Fin 24} (clear : x.getLsbD i = false) : x ||| bitFlip i = x ^^^ bitFlip i := by
  refine BitVec.eq_of_getLsbD_eq fun n _ => ?_
  rw [BitVec.getLsbD_or, BitVec.getLsbD_xor, getLsbD_bitFlip]
  by_cases h : i.val = n
  · rw [← h, clear]; simp
  · simp [h]

/-- Flipping the bits i, j and k, with repetitions, flips three of them (or one, three times over), or two different ones. -/
theorem flips_cases (i j k : Fin 24) :
    (∃ a b c, bitFlip i ||| bitFlip j ||| bitFlip k = bitFlip a ^^^ bitFlip b ^^^ bitFlip c) ∨
    (∃ a b, a ≠ b ∧ bitFlip i ||| bitFlip j ||| bitFlip k = bitFlip a ^^^ bitFlip b) := by
  have distinct {a b : Fin 24} (ne : a ≠ b) : (bitFlip a).getLsbD b = false := by
    rw [getLsbD_bitFlip]; exact decide_eq_false (Fin.val_ne_of_ne ne)
  have pair {a b : Fin 24} (ne : a ≠ b) : bitFlip a ||| bitFlip b = bitFlip a ^^^ bitFlip b := or_bitFlip (distinct ne)
  by_cases ij : i = j
  · subst ij
    rw [BitVec.or_self]
    by_cases ik : i = k
    · subst ik; exact .inl ⟨i, i, i, by simp⟩
    · exact .inr ⟨i, k, ik, pair ik⟩
  · by_cases ik : i = k
    · subst ik; exact .inr ⟨i, j, ij, by rw [← pair ij, BitVec.or_comm, ← BitVec.or_assoc, BitVec.or_self]⟩
    · by_cases jk : j = k
      · subst jk; exact .inr ⟨i, j, ij, by rw [← pair ij, BitVec.or_assoc, BitVec.or_self]⟩
      · refine .inl ⟨i, j, k, ?_⟩
        rw [pair ij, or_bitFlip (by rw [BitVec.getLsbD_xor, distinct ik, distinct jk]; rfl)]

theorem syndrome_flips_ne_zero (i j k : Fin 24) : syndrome (bitFlip i ||| bitFlip j ||| bitFlip k) ≠ 0#8 := by
  rcases flips_cases i j k with ⟨a, b, c, flips⟩ | ⟨a, b, ne, flips⟩ <;> rw [flips]
  · exact syndrome_three_flips_ne_zero a b c
  · exact syndrome_two_flips_ne_zero ne

/-- Settles O23: a change is detected exactly when its syndrome is not 0. -/
theorem upToThreeBitErrorsAreDetected : Obligations.UpToThreeBitErrorsAreDetected := by
  refine ⟨fun v i j k => ?_, by decide +kernel, by decide +kernel, fun v v' change =>
    (changed_matches_iff v change).trans (changed_matches_iff v' change).symm⟩
  intro frame
  have wrong : crcWord (frame.extractLsb' 8 16) ≠ frame.extractLsb' 0 8 :=
    mt (changed_matches_iff v _).1 (syndrome_flips_ne_zero i j k)
  have bytes : wordOf (frame.extractLsb' 16 8) (frame.extractLsb' 8 8) = frame.extractLsb' 8 16 :=
    BitVec.extractLsb'_append_extractLsb'_eq_extractLsb' rfl
  have mismatch : crcWord (wordOf (frame.extractLsb' 16 8) (frame.extractLsb' 8 8)) ≠ frame.extractLsb' 0 8 := by rwa [bytes]
  exact ⟨wrong, checkWords_one_wrong mismatch, fun s ready =>
    ⟨_, (wordChkComparesCrcBytes _ _ _ s ready).2 mismatch, rfl, rfl⟩⟩

end Sys2Proof.Machine

/-! PROOFS of the family 41_framer: the wait, the response check by index, what the frame limits decide, the courses
that read, and the complete trace of every framer request. -/

namespace Sys2Proof.Machine

open Sys2Proof.Claims

variable {i : Instr} {s : State}

/-! ### The wait (R93, R133; log 6) -/

/-- Settles O11. -/
theorem readyBlockWaitsForARequest : Obligations.ReadyBlockWaitsForARequest := by
  intro s ready idle script
  rw [step_waits ready idle, hostTurn_nil script]
  rfl

/-! ### The response check by index (R38, R88) -/

/-- The words of a response of `m` words, one by one (R38). -/
theorem responseWords_eq_map {m : Nat} {b : List Byte} (length : b.length = 3 * m) :
    responseWords b = (List.range m).map fun i =>
      (b.getD (3 * i) 0#8 ++ b.getD (3 * i + 1) 0#8, b.getD (3 * i + 2) 0#8) := by
  induction m generalizing b with
  | zero => rw [List.length_eq_zero_iff.1 length]; rfl
  | succ m ih =>
    match b, length with
    | hi :: lo :: c :: rest, length =>
      have restLength : rest.length = 3 * m := by simp at length; omega
      rw [responseWords, ih restLength, List.range_succ_eq_map, List.map_cons, List.map_map]
      rfl

/-- The reported index is that of a bad word, with every lower word good. -/
theorem checkWords_error_iff {bytes : List Byte} {k : Nat} :
    checkWords bytes = .error k ↔ ∃ lt : k < (responseWords bytes).length,
      wordGood (responseWords bytes)[k] = false ∧
      ∀ (j : Nat) (below : j < k), wordGood ((responseWords bytes)[j]'(below.trans lt)) = true := by
  have reports : checkWords bytes = .error k ↔ (responseWords bytes).findIdx? (fun w => !wordGood w) = some k := by
    unfold checkWords
    cases (responseWords bytes).findIdx? (fun w => !wordGood w) <;> simp
  rw [reports, List.findIdx?_eq_some_iff_getElem]
  simp

/-- Settles O31: both directions of the check, read off the words by index. -/
theorem responseCheckReportsLowestBadWord : Obligations.ResponseCheckReportsLowestBadWord := by
  intro m b length value good
  have words : responseWords b = (List.range m).map fun i => (value i, b.getD (3 * i + 2) 0#8) :=
    responseWords_eq_map length
  refine ⟨fun values => ?_, fun k => ?_⟩
  · rw [checkWords_ok_iff, words, and_comm]
    simp [wordGood, good, Function.comp_def]
  · rw [checkWords_error_iff]
    simp [words, wordGood, good, and_left_comm]

/-- A response made of word frames passes the check (R64, R88). -/
theorem checkWords_wordFrames (values : List Word) : checkWords (values.flatMap wordFrame) = .ok values := by
  rw [checkWords_ok_iff, responseWords_wordFrames]
  simp [wordGood, Function.comp_def]

/-! ### What the frame limits decide at acceptance (R83) -/

section course
variable {c : FramerCourse} {f : List Byte} {n : BitVec 3}

/-- A size error ends the request at acceptance (R83, R117). -/
theorem course_too_large (ready : s.phase.ready = true) (noFrame : c.frame = none) : c.step s = tooLarge s := by
  rw [FramerCourse.step, framer_ready ready, noFrame]; rfl

/-- Acceptance is decided by whether the request has a frame: a size error at once, or on to the write with no event. -/
theorem exec_of_limit {large : Prop} [Decidable large] (hc : courseOf i.expand = some c) (ready : s.phase.ready = true)
    (limit : c.frame = none ↔ large) :
    if large then exec i s = .next (tooLarge s) else ∃ t, exec i s = .next t ∧ t.phase = .wr ∧ t.trace = s.trace := by
  rw [exec_of_course hc]
  split
  next isLarge => rw [course_too_large ready (limit.2 isLarge)]
  next fits =>
    obtain ⟨f, hf⟩ := Option.ne_none_iff_exists'.1 (mt limit.1 fits)
    rw [course_accepts ready hf]
    exact ⟨_, rfl, rfl, rfl⟩

theorem six_lt_toNat_iff {n : BitVec 3} : 6 < n.toNat ↔ n = 7#3 := by bv_omega

/-- Settles O25: a request with a frame goes on, one without is too large. -/
theorem frameLimitDecidesAtAcceptance : Obligations.FrameLimitDecidesAtAcceptance := by
  intro addr opcode words rxn settle s goesOn ready
  refine ⟨by simp [limitError], ?write, ?writeRead, ?read, fun be byte => ?writeByte⟩
  case write => exact exec_of_limit (i := .write ..) rfl ready (boundedFrame_eq_none.trans (by omega))
  case writeRead =>
    exact exec_of_limit (i := .writeRead ..) rfl ready
      (boundedFrame_eq_none.trans (or_congr Nat.lt_iff_add_one_le six_lt_toNat_iff))
  case read =>
    exact exec_of_limit (i := .read ..) rfl ready (boundedFrame_eq_none.trans (by simp [six_lt_toNat_iff]))
  case writeByte => exact exec_of_limit (i := .writeByte be addr byte settle) (large := False) rfl ready (by simp)

/-! ### The courses that read (R82, R85 to R88, R90, R91) -/

/-- The state in which the read is due: accepted, the write and the delay made (R85, R86). -/
def FramerCourse.awaitingRead (c : FramerCourse) (f : List Byte) (r : WriteResult) (s : State) : State :=
  { accepted f c.words s with trace := s.trace ++ [.write c.addr f r, .delay c.settle], phase := .rd }

/-- The accepted request with the response in RXB and its CRCs computed (R87, R88; ACC: log 2). -/
def FramerCourse.received (c : FramerCourse) (f bytes : List Byte) (s : State) : State :=
  { accepted f c.words s with
    rxb := bytes, acc := accAfter ((responseWords bytes).map Prod.fst) (accAfter c.words s.acc) }

theorem awaitingRead_answer (c : FramerCourse) (f : List Byte) (r : WriteResult) (s : State) :
    (c.awaitingRead f r s).answer = s.answer := rfl

theorem awaitingRead_drawn (c : FramerCourse) (f : List Byte) (r : WriteResult) (s : State) :
    (c.awaitingRead f r s).drawn = c.awaitingRead f r s.drawn := by
  cases h : s.answers <;> simp [State.drawn, FramerCourse.awaitingRead, accepted, h]

/-- The write goes on, by its result or by BE (R85). -/
theorem course_writes (ready : s.phase.ready = true) (hf : c.frame = some f)
    (goesOn : s.answer.toWrite = .ok ∨ c.be = true) :
    c.step^[2] s = { (accepted f c.words s.drawn).emit (.write c.addr f s.answer.toWrite) with phase := .st } := by
  calc c.step^[2] s
    _ = c.step (accepted f c.words s) := by rw [← course_accepts ready hf]; rfl
    _ = _ := by
      rw [FramerCourse.step, framer_wr rfl, ← accepted_drawn]
      exact if_pos (by rwa [accepted_answer])

/-- After the delay a request that reads awaits its response (R86). -/
theorem course_awaits_read (ready : s.phase.ready = true) (hf : c.frame = some f) (hn : c.response = some n)
    (goesOn : s.answer.toWrite = .ok ∨ c.be = true) :
    c.step^[3] s = c.awaitingRead f s.answer.toWrite s.drawn := by
  rw [Function.iterate_succ_apply', course_writes ready hf goesOn, FramerCourse.step, framer_st rfl, hn]
  simp [settleStep, State.emit, FramerCourse.awaitingRead, accepted]

/-- The read is the fourth step, with the second answer of the bus (R87). -/
theorem course_reads (ready : s.phase.ready = true) (hf : c.frame = some f) (hn : c.response = some n)
    (wrote : s.answer.toWrite = .ok) :
    c.step^[4] s = readStep c.addr n (c.awaitingRead f .ok s.drawn) := by
  rw [Function.iterate_succ_apply', course_awaits_read ready hf hn (.inl wrote), wrote, FramerCourse.step, hn,
    framer_rd rfl]

/-- A failed read (R87, R117). -/
theorem course_ends_on_read_error (ready : s.phase.ready = true) (hf : c.frame = some f) (hn : c.response = some n)
    (wrote : s.answer.toWrite = .ok) (failed : s.drawn.answer = .err) :
    c.step^[4] s = endedWith 0x01#8 s
      [.write c.addr f .ok, .delay c.settle, .read c.addr (3 * n.toNat) .err, .log .readFailed]
      (accepted f c.words s.drawn.drawn) := by
  rw [course_reads ready hf hn wrote, readStep_err ((awaitingRead_answer ..).trans failed), awaitingRead_drawn]
  simp [endErr, State.emit, endedWith, FramerCourse.awaitingRead, accepted]
  rfl

/-- A response whose words are all good (R87, R88). -/
theorem course_exposes_words {b : Vector Byte 18} {values : List Word} (ready : s.phase.ready = true)
    (hf : c.frame = some f) (hn : c.response = some n) (wrote : s.answer.toWrite = .ok) (read : s.drawn.answer = .ok b)
    (good : checkWords (b.toList.take (3 * n.toNat)) = .ok values) :
    c.step^[4] s = endedWith 0x00#8 s
      [.write c.addr f .ok, .delay c.settle, .read c.addr (3 * n.toNat) (.ok (b.toList.take (3 * n.toNat)))]
      { c.received f (b.toList.take (3 * n.toNat)) s.drawn.drawn with rxw := values, vRxw := true } := by
  rw [course_reads ready hf hn wrote, readStep_ok ((awaitingRead_answer ..).trans read), awaitingRead_drawn]
  simp [acceptResponse, good, endOk, State.emit, endedWith, FramerCourse.awaitingRead, FramerCourse.received, accepted,
    statusByte_ok]

/-- A response with a bad word, the lowest-numbered of index `k` (R87, R88, R117). -/
theorem course_ends_on_bad_word {b : Vector Byte 18} {k : Nat} (ready : s.phase.ready = true)
    (hf : c.frame = some f) (hn : c.response = some n) (wrote : s.answer.toWrite = .ok) (read : s.drawn.answer = .ok b)
    (bad : checkWords (b.toList.take (3 * n.toNat)) = .error k) :
    c.step^[4] s = endedWith (statusByte .checksumError k) s
      [.write c.addr f .ok, .delay c.settle, .read c.addr (3 * n.toNat) (.ok (b.toList.take (3 * n.toNat))),
        .log .checksumMismatch]
      (c.received f (b.toList.take (3 * n.toNat)) s.drawn.drawn) := by
  rw [course_reads ready hf hn wrote, readStep_ok ((awaitingRead_answer ..).trans read), awaitingRead_drawn]
  simp [acceptResponse, bad, endErr, State.emit, endedWith, FramerCourse.awaitingRead, FramerCourse.received, accepted]

/-- A reported index is below the number of words asked for. -/
theorem checkWords_error_lt_rxn {b : Vector Byte 18} {n k : Nat} (limit : 3 * n ≤ 18)
    (bad : checkWords (b.toList.take (3 * n)) = .error k) : k < n := by
  rw [← responseWords_length (response_length b limit)]
  exact checkWords_error_lt bad

theorem readsAfterSettling_of_course (hc : courseOf i.expand = some c) (hf : c.frame = some f)
    (hn : c.response = some n) (limit : 3 * n.toNat ≤ 18) :
    ReadsAfterSettling i c.addr f c.words c.settle n.toNat := by
  intro s ready
  refine ⟨by rw [exec_of_course hc, course_accepts ready hf], fun b ok => ?_⟩
  have wrote : s.answer.toWrite = .ok := by rw [ok]; rfl
  have acc : s.drawn.drawn.acc = s.acc := by simp
  rw [runExec_of_course hc]
  refine ⟨fun failed => ?_, fun b' read => ?_⟩
  · rw [course_ends_on_read_error ready hf hn wrote failed]
  intro response events received
  refine ⟨fun values _ frames => ?_, fun k bad => ?_⟩
  · have good : checkWords response = .ok values := by rw [frames, checkWords_wordFrames]
    rw [course_exposes_words ready hf hn wrote read good, FramerCourse.received, acc]
  · have lt := checkWords_error_lt_rxn limit bad
    rw [course_ends_on_bad_word ready hf hn wrote read bad, statusByte_checksumError (by omega), add_comm (4 * k),
      FramerCourse.received, acc]
    rfl

end course

theorem rxn_within_limit {rxn : BitVec 3} (not7 : rxn ≠ 7#3) : 3 * rxn.toNat ≤ 18 := by bv_omega

/-- Settles O27: up to four words out and six back are within the frame limits. -/
theorem writeReadReturnsCheckedWords : Obligations.WriteReadReturnsCheckedWords := by
  intro addr opcode words rxn settle le _ not7
  have limit := rxn_within_limit not7
  have frame : boundedFrame words.length rxn.toNat (guardedFrame opcode words) = some (guardedFrame opcode words) :=
    boundedFrame_eq_some.2 ⟨⟨by omega, limit⟩, rfl⟩
  exact ⟨readsAfterSettling_of_course (i := .writeRead addr opcode words rxn settle) rfl frame rfl limit,
    endsOnWriteError_of_course (i := .writeRead addr opcode words rxn settle) rfl frame rfl⟩

/-- Settles O28: READ's frame is the bare opcode. -/
theorem readReturnsCheckedWords : Obligations.ReadReturnsCheckedWords := by
  intro addr opcode rxn settle _ not7
  have limit := rxn_within_limit not7
  have frame : boundedFrame 0 rxn.toNat (guardedFrame opcode []) = some (be16 opcode) :=
    boundedFrame_eq_some.2 ⟨⟨by omega, limit⟩, rfl⟩
  exact ⟨readsAfterSettling_of_course (i := .read addr opcode rxn settle) rfl frame rfl limit,
    endsOnWriteError_of_course (i := .read addr opcode rxn settle) rfl frame rfl⟩

/-- Settles O30: the two courses are the same application of `framer`. -/
theorem readIsWriteReadWithoutPayload : Obligations.ReadIsWriteReadWithoutPayload := fun _ _ _ _ _ => rfl

/-! ### The complete trace of a framer request (R96, R124) -/

/-- The rows of R96 for the course `c`, by its frame and its response: the events it may have made, with CODE and ERRIDX. -/
inductive FramerCourse.Row (c : FramerCourse) :
    Option (List Byte) → Option (BitVec 3) → List Event → StatusCode → Nat → Prop where
  | tooLarge (response : Option (BitVec 3)) : Row c none response [.log .frameTooLarge] .transportError 0
  | writeFailed (f : List Byte) (response : Option (BitVec 3)) (strict : c.be = false) :
    Row c (some f) response [.write c.addr f .err, .log .writeFailed] .transportError 0
  | settled (f : List Byte) (r : WriteResult) (goesOn : r = .ok ∨ c.be = true) :
    Row c (some f) none [.write c.addr f r, .delay c.settle] .ok 0
  | readFailed (f : List Byte) (n : BitVec 3) :
    Row c (some f) (some n)
      [.write c.addr f .ok, .delay c.settle, .read c.addr (3 * n.toNat) .err, .log .readFailed] .transportError 0
  | badWord (f : List Byte) (n : BitVec 3) (b : Vector Byte 18) (k : Nat)
      (bad : checkWords (b.toList.take (3 * n.toNat)) = .error k) :
    Row c (some f) (some n)
      [.write c.addr f .ok, .delay c.settle, .read c.addr (3 * n.toNat) (.ok (b.toList.take (3 * n.toNat))),
        .log .checksumMismatch] .checksumError k
  | good (f : List Byte) (n : BitVec 3) (b : Vector Byte 18) (values : List Word)
      (ok : checkWords (b.toList.take (3 * n.toNat)) = .ok values) :
    Row c (some f) (some n)
      [.write c.addr f .ok, .delay c.settle, .read c.addr (3 * n.toNat) (.ok (b.toList.take (3 * n.toNat)))] .ok 0

/-- From `s`, `k + 1` steps of the course end it with a row of R96, and after each of the first `k` the block is busy. -/
def FramerCourse.EndsAfter (c : FramerCourse) (k : Nat) (s : State) : Prop :=
  (∀ j, j < k → (c.step^[j + 1] s).phase.ready = false) ∧
  ∃ events code idx u, c.Row c.frame c.response events code idx ∧
    c.step^[k + 1] s = endedWith (statusByte code idx) s events u

section complete
variable {c : FramerCourse} {f : List Byte} {n : BitVec 3} {events : List Event} {code : StatusCode} {idx : Nat}

theorem course_ends_at_acceptance (ready : s.phase.ready = true) (noFrame : c.frame = none) : c.EndsAfter 0 s := by
  refine ⟨nofun, _, .transportError, 0, s.clearValidity, ?_, course_too_large ready noFrame⟩
  rw [noFrame]; exact .tooLarge _

theorem course_ends_after_write (ready : s.phase.ready = true) (hf : c.frame = some f) (strict : c.be = false)
    (failed : s.answer = .err) : c.EndsAfter 1 s := by
  constructor
  · intro j lt
    obtain rfl : j = 0 := by omega
    rw [Function.iterate_one, course_accepts ready hf]; rfl
  · refine ⟨_, .transportError, 0, _, ?_, course_ends_on_write_error ready hf strict failed⟩
    rw [hf]; exact .writeFailed f _ strict

/-- The delay ends a request that does not read (R86). -/
theorem course_ends_after_delay (ready : s.phase.ready = true) (hf : c.frame = some f) (writeOnly : c.response = none)
    (goesOn : s.answer.toWrite = .ok ∨ c.be = true) : c.EndsAfter 2 s := by
  constructor
  · intro j lt
    interval_cases j
    · rw [Function.iterate_one, course_accepts ready hf]; rfl
    · rw [course_writes ready hf goesOn]; rfl
  · refine ⟨_, .ok, 0, _, ?_, course_settles ready hf writeOnly goesOn⟩
    rw [hf, writeOnly]; exact .settled f _ goesOn

/-- The read ends a request that makes one, whatever the bus answers (R87). -/
theorem course_ends_after_read (ready : s.phase.ready = true) (hf : c.frame = some f) (hn : c.response = some n)
    (wrote : s.answer.toWrite = .ok) : c.EndsAfter 3 s := by
  constructor
  · intro j lt
    interval_cases j
    · rw [Function.iterate_one, course_accepts ready hf]; rfl
    · rw [course_writes ready hf (.inl wrote)]; rfl
    · rw [course_awaits_read ready hf hn (.inl wrote)]; rfl
  rw [hf, hn]
  cases read : s.drawn.answer with
  | err => exact ⟨_, .transportError, 0, _, .readFailed f n, course_ends_on_read_error ready hf hn wrote read⟩
  | ok b =>
    cases check : checkWords (b.toList.take (3 * n.toNat)) with
    | error k => exact ⟨_, _, _, _, .badWord f n b k check, course_ends_on_bad_word ready hf hn wrote read check⟩
    | ok values => exact ⟨_, .ok, 0, _, .good f n b values check, course_exposes_words ready hf hn wrote read check⟩

/-- Every course from a ready state ends within four steps (R124). Only WRITE_BYTE has BE (R57), so one that reads is
strict. -/
theorem course_ends (strict : c.response ≠ none → c.be = false) (ready : s.phase.ready = true) :
    ∃ k ≤ 3, c.EndsAfter k s := by
  cases hf : c.frame with
  | none => exact ⟨0, by omega, course_ends_at_acceptance ready hf⟩
  | some f =>
    cases answer : s.answer with
    | ok b =>
      have wrote : s.answer.toWrite = .ok := by rw [answer]; rfl
      cases hn : c.response with
      | none => exact ⟨2, by omega, course_ends_after_delay ready hf hn (.inl wrote)⟩
      | some n => exact ⟨3, by omega, course_ends_after_read ready hf hn wrote⟩
    | err =>
      cases be : c.be with
      | false => exact ⟨1, by omega, course_ends_after_write ready hf be answer⟩
      | true =>
        have writeOnly : c.response = none := by by_contra reads; simp [strict reads] at be
        exact ⟨2, by omega, course_ends_after_delay ready hf writeOnly (.inr be)⟩

/-- A reading course's rows past the size check are those of R96. -/
theorem readEnd_of_row (row : c.Row (some f) (some n) events code idx) (limit : 3 * n.toNat ≤ 18) :
    completeTrace.readEnd c.addr f n c.settle events code.bits (BitVec.ofNat 3 idx) := by
  cases row with
  | writeFailed => exact .inl ⟨rfl, rfl, rfl⟩
  | readFailed => exact .inr (.inl ⟨rfl, rfl, rfl⟩)
  | badWord f n b k bad =>
    have lt := checkWords_error_lt_rxn limit bad
    have index : (BitVec.ofNat 3 idx).toNat = idx := Nat.mod_eq_of_lt (by omega)
    exact .inr (.inr (.inl ⟨_, response_length b limit, by rw [bad, index], rfl, rfl⟩))
  | good f n b values ok => exact .inr (.inr (.inr ⟨_, values, response_length b limit, ok, rfl, rfl, rfl⟩))

/-- A row of a frame under the limits (R83): the size error, or a row of the frame itself. -/
theorem row_of_boundedFrame {txn rxn : Nat} {frame : List Byte} {response : Option (BitVec 3)}
    (row : c.Row (boundedFrame txn rxn frame) response events code idx) :
    ((4 < txn ∨ 6 < rxn) ∧ events = [.log .frameTooLarge] ∧ code = .transportError ∧ idx = 0) ∨
    (txn ≤ 4 ∧ rxn ≤ 6 ∧ c.Row (some frame) response events code idx) := by
  cases hf : boundedFrame txn rxn frame with
  | none =>
    rw [hf] at row
    cases row
    exact .inl ⟨boundedFrame_eq_none.1 hf, rfl, rfl, rfl⟩
  | some f =>
    rw [hf] at row
    obtain ⟨⟨tx, rx⟩, rfl⟩ := boundedFrame_eq_some.1 hf
    exact .inr ⟨by omega, by omega, row⟩

/-- A row of a request's course is one of the request's rows in R96. -/
theorem completeTrace_of_row (hc : courseOf i = some c) (row : c.Row c.frame c.response events code idx) :
    completeTrace i events code.bits (BitVec.ofNat 3 idx) := by
  cases i
  case write addr opcode words settle =>
    cases hc
    rcases row_of_boundedFrame row with ⟨large, rfl, rfl, rfl⟩ | ⟨tx, _, row⟩
    · exact .inl ⟨by omega, rfl, rfl, rfl⟩
    · refine .inr ⟨tx, ?_⟩
      cases row with
      | writeFailed => exact .inl ⟨rfl, rfl, rfl⟩
      | settled f r goesOn =>
        obtain rfl : r = .ok := by simpa using goesOn
        exact .inr ⟨rfl, rfl, rfl⟩
  case writeRead addr opcode words rxn settle =>
    cases hc
    rcases row_of_boundedFrame row with ⟨large, rfl, rfl, rfl⟩ | ⟨tx, rx, row⟩
    · exact .inl ⟨large.imp id six_lt_toNat_iff.1, rfl, rfl, rfl⟩
    · exact .inr ⟨tx, mt six_lt_toNat_iff.2 rx.not_gt, readEnd_of_row row (by omega)⟩
  case read addr opcode rxn settle =>
    cases hc
    rcases row_of_boundedFrame row with ⟨large, rfl, rfl, rfl⟩ | ⟨_, rx, row⟩
    · exact .inl ⟨six_lt_toNat_iff.1 (by omega), rfl, rfl, rfl⟩
    · exact .inr ⟨mt six_lt_toNat_iff.2 rx.not_gt, readEnd_of_row row (by omega)⟩
  case writeByte be addr byte settle =>
    cases hc
    cases row with
    | writeFailed f response strict => exact .inl ⟨strict, rfl, rfl, rfl⟩
    | settled f r goesOn =>
      cases be with
      | true => exact .inr (.inr ⟨rfl, r, rfl, rfl, rfl⟩)
      | false =>
        obtain rfl : r = .ok := by simpa using goesOn
        exact .inr (.inl ⟨rfl, rfl, rfl, rfl⟩)
  all_goals cases hc

theorem course_of_isFramer (h : isFramer i = true) : ∃ c, courseOf i = some c := by
  cases i
  case write => exact ⟨_, rfl⟩
  case writeRead => exact ⟨_, rfl⟩
  case read => exact ⟨_, rfl⟩
  case writeByte => exact ⟨_, rfl⟩
  all_goals cases h

theorem strict_of_reads (hc : courseOf i = some c) (reads : c.response ≠ none) : c.be = false := by
  obtain ⟨n, hn⟩ := Option.ne_none_iff_exists'.1 reads
  rcases reads_of_course hc hn with ⟨_, _, _, _, rfl⟩ | ⟨_, _, _, _, _, rfl⟩ <;> cases hc <;> rfl

/-! ### A request in progress runs its course (R17, R137) -/

/-- The course does not see that the request is withdrawn (log 6). -/
theorem course_accepts_withdraw (ready : s.phase.ready = true) : (c.step s).withdraw = c.step s.withdraw := by
  rw [FramerCourse.step, framer_ready ready, framer_ready (s := s.withdraw) ready]
  cases c.frame <;> rfl

theorem step_begins_course (ready : s.phase.ready = true) (valid : s.port.valid = true) (script : s.hostNext = [])
    (hd : decode s.port.req = .ok i) (hc : courseOf i = some c) : step s = .next (c.step s.latch.withdraw) := by
  have runs := exec_of_course (i := i) (by rwa [decode_expand hd]) s.latch
  rw [(stepRunsThePresentedRequest s i ready valid hd).2 _ script runs, ← course_accepts_withdraw (s := s.latch) ready]
  rfl

theorem run_succ (M : Host.Core) {s t : M.State} (h : M.step s = .next t) (k : Nat) : M.run (k + 1) s = M.run k t := by
  rw [Host.Core.run, h]

/-- While the block stays busy, the machine's steps are the course's. -/
theorem run_of_course {k : Nat} (script : s.hostNext = []) (hd : decode s.req = .ok i) (hc : courseOf i = some c)
    (busy : ∀ j, j < k → (c.step^[j] s).phase.ready = false) :
    Host.Core.run Sys2Proof.core k s = .next (c.step^[k] s) := by
  induction k generalizing s with
  | zero => rfl
  | succ k ih =>
    have runs := exec_of_course (i := i) (by rwa [decode_expand hd]) s
    have steps : step s = .next (c.step s) :=
      ((busyStepRunsTheLatchedRequest s i (busy 0 k.succ_pos) hd).2 script).trans runs
    have keeps := exec_keepsEnvironment runs
    refine (run_succ Sys2Proof.core steps k).trans (ih (keeps.hostNext.trans script)
      (by rwa [keeps.req]) fun j lt => busy (j + 1) (Nat.succ_lt_succ lt))

/-- Settles O32: the request's course ends with a row, and the machine's steps after the acceptance are the course's. -/
theorem framerRequestsMakeACompleteTrace : Obligations.FramerRequestsMakeACompleteTrace := by
  intro s i ready valid script hd framerKind
  obtain ⟨c, hc⟩ := course_of_isFramer framerKind
  obtain ⟨k, le, busy, events, code, idx, u, row, ends⟩ :=
    course_ends (s := s.latch.withdraw) (strict_of_reads hc) ready
  have keeps := exec_keepsEnvironment (exec_of_course (i := i) (by rwa [decode_expand hd]) s.latch.withdraw)
  have runs : Host.Core.run Sys2Proof.core (k + 1) s = .next (c.step^[k + 1] s.latch.withdraw) :=
    (run_succ Sys2Proof.core (step_begins_course ready valid script hd hc) k).trans
      (run_of_course (keeps.hostNext.trans script) (by rw [keeps.req]; exact hd) hc busy)
  refine ⟨k, _, events, le, runs, ?_⟩
  rw [ends]
  refine ⟨rfl, rfl, rfl, ?_⟩
  rw [State.code, State.errIdx, endedWith, statusByte_code, statusByte_errIdx]
  exact completeTrace_of_row hc row

end complete

end Sys2Proof.Machine

/-! PROOFS of the family 42_catalog: a catalog command has what is proved of the course it expands to (R71, R98); what is
left of each is that its frame is within the frame limits (R83). -/

namespace Sys2Proof.Machine

open Sys2Proof.Claims

variable {i : Instr}

/-- A command with WRITE's course writes its guarded frame and settles (R71, R89). -/
theorem writes_of_write_course {addr : Byte} {opcode : Word} {words : List Word} {settle : Word32}
    (course : courseOf i.expand = courseOf (.write addr opcode words settle)) (le : words.length ≤ 4) :
    WritesThenSettles i addr (guardedFrame opcode words) words settle ∧
    EndsOnWriteError i addr (guardedFrame opcode words) words := by
  have frame : boundedFrame words.length 0 (guardedFrame opcode words) = some (guardedFrame opcode words) :=
    boundedFrame_eq_some.2 ⟨by omega, rfl⟩
  exact ⟨writesThenSettles_of_course course frame rfl, endsOnWriteError_of_course course frame rfl⟩

/-- A command with WRITE_READ's course, which is READ's where there is no payload word, writes its guarded frame and reads
(R71, R90, R94). -/
theorem reads_of_writeRead_course {addr : Byte} {opcode : Word} {words : List Word} {rxn : BitVec 3} {settle : Word32}
    (course : courseOf i.expand = courseOf (.writeRead addr opcode words rxn settle)) (le : words.length ≤ 4)
    (not7 : rxn ≠ 7#3) :
    ReadsAfterSettling i addr (guardedFrame opcode words) words settle rxn.toNat ∧
    EndsOnWriteError i addr (guardedFrame opcode words) words := by
  have limit := rxn_within_limit not7
  have frame : boundedFrame words.length rxn.toNat (guardedFrame opcode words) = some (guardedFrame opcode words) :=
    boundedFrame_eq_some.2 ⟨⟨by omega, limit⟩, rfl⟩
  exact ⟨readsAfterSettling_of_course course frame rfl limit, endsOnWriteError_of_course course frame rfl⟩

/-! ### The frames of the catalog (R62): a bare opcode, and an opcode with one or two word frames -/

theorem guardedFrame_nil (opcode : Word) : guardedFrame opcode [] = be16 opcode := rfl

theorem guardedFrame_one (opcode v : Word) : guardedFrame opcode [v] = be16 opcode ++ wordFrame v := rfl

theorem guardedFrame_two (opcode v w : Word) : guardedFrame opcode [v, w] = be16 opcode ++ wordFrame v ++ wordFrame w := rfl

/-! ### The commands (R99 to R114) -/

/-- Settles O34: each of the seven has WRITE's course with no payload word. -/
theorem bareCommandsWriteAndSettle : Obligations.BareCommandsWriteAndSettle := by
  intro dev claim
  have bare (i : Instr) (opcode : Word) (ms : Word32)
      (course : courseOf i.expand = courseOf (.write dev opcode [] ms)) : claim i opcode ms := by
    have writes := writes_of_write_course course (by simp)
    rwa [guardedFrame_nil] at writes
  exact ⟨bare _ _ _ rfl, bare _ _ _ rfl, bare _ _ _ rfl, bare _ _ _ rfl, bare _ _ _ rfl, bare _ _ _ rfl, bare _ _ _ rfl⟩

/-- Settles O35: WRITE's course with two payload words, and with one. -/
theorem compensationCommandsWriteTheirWords : Obligations.CompensationCommandsWriteTheirWords := by
  intro dev t h p rht pressure
  have setRht := writes_of_write_course (i := .setRht dev t h) rfl (by simp)
  have setPressure := writes_of_write_course (i := .setPressure dev p) rfl (by simp)
  rw [guardedFrame_two] at setRht
  rw [guardedFrame_one] at setPressure
  exact ⟨setRht.1, setRht.2, setPressure.1, setPressure.2⟩

/-- Settles O36: both courses have the one byte as their frame, and EXIT_SLEEP's has BE. -/
theorem singleByteCommands : Obligations.SingleByteCommands :=
  ⟨fun dev => settlesWhateverTheWrite_of_course (i := .exitSleep dev) rfl rfl rfl rfl rfl,
    writesThenSettles_of_course (i := .softReset) rfl rfl rfl,
    endsOnWriteError_of_course (i := .softReset) rfl rfl rfl⟩

/-- Settles O37: READ's course is WRITE_READ's with no payload word, and none of the four asks for seven words. -/
theorem readingCommandsReturnTheirWords : Obligations.ReadingCommandsReturnTheirWords := by
  intro dev claim
  have reading (i : Instr) (opcode : Word) (ms : Word32) (n : BitVec 3) (not7 : n ≠ 7#3)
      (course : courseOf i.expand = courseOf (.read dev opcode n ms)) : claim i opcode ms n.toNat := by
    have reads := reads_of_writeRead_course (words := []) course (by simp) not7
    rwa [guardedFrame_nil] at reads
  exact ⟨reading _ _ _ 1#3 (by decide) rfl, reading _ _ _ 1#3 (by decide) rfl, reading _ _ _ 6#3 (by decide) rfl,
    reading _ _ _ 4#3 (by decide) rfl⟩

/-- Settles O38: WRITE_READ's course with one word out and one back. -/
theorem frcSendsATargetAndReturnsAWord : Obligations.FrcSendsATargetAndReturnsAWord := by
  intro dev r
  rw [← guardedFrame_one]
  exact reads_of_writeRead_course (i := .frc dev r) rfl (by simp) (by decide)

end Sys2Proof.Machine

/-! PROOFS of the family 60_exceptions: every step of a request in progress brings it nearer to DONE, whatever the bus
answers, so it ends (R124, R137). -/

namespace Sys2Proof.Machine

variable {s : State}

/-! ### The phase that each step of the sequencer leads to (R85 to R87) -/

theorem writeStep_phase (addr : Byte) (be : Bool) (s : State) :
    (writeStep addr be s).phase = .st ∨ (writeStep addr be s).phase = .done := by
  by_cases goesOn : s.answer.toWrite = .ok ∨ be = true
  · exact .inl (by simp [writeStep, goesOn])
  · exact .inr (by simp [writeStep, goesOn])

theorem settleStep_phase (settle : Word32) (reads : Bool) (s : State) :
    (settleStep settle reads s).phase = if reads then .rd else .done := by
  cases reads <;> rfl

theorem readStep_phase (addr : Byte) (rxn : BitVec 3) (s : State) : (readStep addr rxn s).phase = .done := by
  cases answer : s.answer with
  | err => rw [readStep_err answer]; rfl
  | ok b =>
    rw [readStep_ok answer]
    rcases acceptResponse_cases (b.toList.take (3 * rxn.toNat))
        (s.drawn.emit (.read addr (3 * rxn.toNat) (.ok (b.toList.take (3 * rxn.toNat))))) with
      ⟨_, _, good⟩ | ⟨_, _, bad⟩
    · rw [good]; rfl
    · rw [bad]; rfl

/-! ### How far a request in progress is from DONE -/

/-- The most steps that a request in this phase still takes. -/
def Phase.stepsLeft : Phase → Nat
  | .wr => 3
  | .st => 2
  | .rd => 1
  | .idle | .done => 0

theorem Phase.stepsLeft_le (p : Phase) : p.stepsLeft ≤ 3 := by
  cases p <;> decide

theorem Phase.stepsLeft_pos {p : Phase} (busy : p.ready = false) : 0 < p.stepsLeft := by
  revert busy
  cases p <;> decide

/-- A request in progress moves from phase `p` to `q`: it has ended, or is still in progress and nearer to its end. -/
def Phase.Advances (p q : Phase) : Prop := q = .done ∨ (q.ready = false ∧ q.stepsLeft < p.stepsLeft)

/-- Each busy phase hands the request on, or ends it; RD does so because only a kind that reads is in it (R86). -/
theorem course_advances {c : FramerCourse} (busy : s.phase.ready = false) (reads : s.phase = .rd → c.response ≠ none) :
    s.phase.Advances (c.step s).phase := by
  rw [FramerCourse.step]
  cases hp : s.phase with
  | idle => simp [hp, Phase.ready] at busy
  | done => simp [hp, Phase.ready] at busy
  | wr =>
    rw [framer_wr hp]
    rcases writeStep_phase c.addr c.be s with settles | ends
    · rw [settles]; exact .inr (by decide)
    · exact .inl ends
  | st =>
    rw [framer_st hp, settleStep_phase]
    split
    · exact .inr (by decide)
    · exact .inl rfl
  | rd =>
    obtain ⟨n, hn⟩ := Option.ne_none_iff_exists'.1 (reads hp)
    rw [hn, framer_rd hp]
    exact .inl (readStep_phase c.addr n s)

/-- With no script pending, a step of a busy block that meets the invariant answers, and brings its request nearer to the
end (R137). -/
theorem step_advances (inv : s.Inv) (busy : s.phase.ready = false) (script : s.hostNext = []) :
    ∃ t, step s = .next t ∧ t.Inv ∧ t.hostNext = [] ∧ s.phase.Advances t.phase := by
  have ⟨_, _, _, progress, _⟩ := inv
  obtain ⟨i, c, hd, hc, _, reads⟩ := (progressFits_iff busy).1 progress
  have runs : exec i s = .next (c.step s) := exec_of_course (by rwa [decode_expand hd]) s
  have steps : step s = .next (c.step s) := ((busyStepRunsTheLatchedRequest s i busy hd).2 script).trans runs
  exact ⟨c.step s, steps, stepKeepsInvariant s _ inv steps, (exec_keepsEnvironment runs).hostNext.trans script,
    course_advances busy reads⟩

/-- In DONE the invariant shows STATUS (R25, R34). -/
theorem done_exposes_status (inv : s.Inv) (done : s.phase = .done) : s.vStatus = true := by
  obtain ⟨_, _, validity, _, _⟩ := inv
  unfold State.validityFits at validity
  rw [done] at validity
  exact validity.1

/-- A request in progress is in DONE after as many steps as its phase leaves it, or fewer. -/
theorem run_reaches_done {n : Nat} (left : s.phase.stepsLeft ≤ n) (inv : s.Inv) (busy : s.phase.ready = false)
    (script : s.hostNext = []) :
    ∃ k t, k ≤ n ∧ Host.Core.run Sys2Proof.core k s = .next t ∧ t.Inv ∧ t.phase = .done := by
  induction n generalizing s with
  | zero => exact absurd left (Phase.stepsLeft_pos busy).not_ge
  | succ n ih =>
    obtain ⟨u, steps, invU, scriptU, advances⟩ := step_advances inv busy script
    rcases advances with done | ⟨busyU, nearer⟩
    · exact ⟨1, u, by omega, run_succ Sys2Proof.core steps 0, invU, done⟩
    · obtain ⟨k, t, le, runs, invT, done⟩ := ih (by omega) invU busyU scriptU
      exact ⟨k + 1, t, by omega, (run_succ Sys2Proof.core steps k).trans runs, invT, done⟩

/-- Settles O50: no phase leaves a request more than three steps, and DONE shows STATUS. -/
theorem requestsInProgressReachDone : Obligations.RequestsInProgressReachDone := by
  intro s inv busy script
  obtain ⟨k, t, le, runs, invT, done⟩ := run_reaches_done s.phase.stepsLeft_le inv busy script
  exact ⟨k, t, le, runs, done, done_exposes_status invT done⟩

end Sys2Proof.Machine
